-- ==== Sys2Proof/Word.lean ====
section
/-! DEFINITION. The words of the device: bytes, 32-bit and 64-bit words, and the shape of a register and of a
register field in the register window (R4, R23). -/

namespace Sys2Proof

/-- A byte. -/
abbrev Byte := BitVec 8

/-- A 32-bit word: a general register of one thread, a uniform register, one lane of a vector register. -/
abbrev Word := BitVec 32

/-- A 64-bit word: a register of the register window. -/
abbrev DWord := BitVec 64

/-- A field of a register: the register's offset in the window, the field's lowest bit and its width. -/
structure Fld where
  reg : Nat
  lo : Nat
  wd : Nat
  deriving DecidableEq, Repr

/-- One row of the register table: where instance 0 lies, the stride and count of each index, whether the register
is 64 bits wide, the bits of each access code (R4) and the reset value (R6). -/
structure RegDef where
  base : Nat
  dims : List (Nat × Nat)
  wide : Bool
  rw : Nat
  rwl : Nat
  w1c : Nat
  wo : Nat
  reset : Nat
  deriving DecidableEq, Repr

end Sys2Proof
end

