-- ==== Sys2Proof/Syntax.lean ====
section
/-! DEFINITION. The commands of the block: one constructor per row of the spec's table of operations and events, with
the operands each carries. -/

namespace Sys2Proof

/-- A packet of the optical fabric: the header of R535, the virtual lane of the flits that carry it (R530), and the
payload. -/
structure Pkt where
  dest : Nat
  src : Nat
  kind : Nat
  tc : Nat
  vl : Nat
  bySlot : Bool
  poison : Bool
  hops : Nat
  epoch : Nat
  seq : Nat
  incarnation : Nat
  part : Nat
  srcPart : Nat
  addr : Nat
  arg : Nat
  data : List Byte
  deriving DecidableEq, Repr

/-- Which path an Igtik instruction issues for: the device quire, the caravan slot and the program counter (a byte
offset from ENTRY, R253). -/
structure Sel where
  quire : Nat
  slot : Nat
  pc : Nat
  deriving DecidableEq, Repr

/-- The fields of a base-format word (R256), beside its class and operation, which the command names. -/
structure BaseW where
  guard : Nat
  dst : Nat
  a : Nat
  b : Nat
  c : Nat
  mod : Nat
  immEn : Bool
  imm : Nat
  deriving DecidableEq, Repr

/-- The fields of a long-format word pair (R257), beside its class and operation. -/
structure LongW where
  guard : Nat
  dst : Nat
  a : Nat
  b : Nat
  c : Nat
  mod : Nat
  cont : Nat
  ext : Nat
  cmask : BitVec 32
  deriving DecidableEq, Repr

/-- The host's answer to a snoop of the device: the TAG and the line's address (R133, R137). -/
structure SnoopAnswer where
  tag : Nat
  addr : Nat
  deriving DecidableEq, Repr

/-- An ACK_I of the host: the TAG, the line's address, and whether an eviction of the line is in flight (R145). -/
structure InvAnswer where
  tag : Nat
  addr : Nat
  evicting : Bool
  deriving DecidableEq, Repr

/-- What the ECC of the home or of a leaf finds when a command reads memory (R475). -/
inductive Ecc where
  | clean
  | corrected
  | uncorrectable
  deriving DecidableEq, Repr

/-- A descriptor read of a ring in host memory that failed, and whether it timed out (R164, R674). -/
structure RingRead where
  q : Nat
  timeout : Bool
  deriving DecidableEq, Repr

/-- The word of a PGATHER, and what the ECC finds when it reads the device's own tile (R436). -/
structure GatherWord where
  w : LongW
  ecc : Ecc
  deriving DecidableEq, Repr

/-- The gather that is admitted, and what the ECC finds when it reads the device's own tile (R436). -/
structure GatherRead where
  id : Nat
  ecc : Ecc
  deriving DecidableEq, Repr

/-- The commands, one constructor for each row of the table, in its order. -/
inductive Instr where
  -- Registers and MCTP (00, 01)
  /-- REGISTER_WRITE (R4). -/
  | registerWrite (off width v : Nat)
  /-- READ_REG (R30). -/
  | readReg (off width : Nat)
  /-- GET_RECORD (R579). -/
  | getRecord
  /-- ACK_RECORD (R579). -/
  | ackRecord (seq : Nat)
  /-- GET_QUOTE (R622). -/
  | getQuote (nonce : List Byte) (mask : Nat)
  /-- MCTP_UNKNOWN_COMMAND (R30). -/
  | mctpUnknownCommand (code : Nat)
  -- Images and microcode (02, 04)
  /-- IMAGE_LOAD (R48). -/
  | imageLoad
  /-- IMAGE_FETCHED (R48). -/
  | imageFetched (bs : List Byte)
  /-- IMAGE_VERIFIED (R616). -/
  | imageVerified
  /-- IMAGE_VALIDATED (R68). -/
  | imageValidated
  /-- PREPARE_DONE (R51). -/
  | prepareDone
  /-- APPLY_DONE (R53). -/
  | applyDone
  /-- OVERLAY_QUIESCED (R61). -/
  | overlayQuiesced
  /-- OVERLAY_TIMEOUT (R61). -/
  | overlayTimeout
  /-- SEAL (R64). -/
  | seal
  /-- REVERT (R59). -/
  | revert
  /-- CANCEL (R62). -/
  | cancel
  /-- UCODE_LOAD (R116). -/
  | ucodeLoad
  /-- UCODE_SWITCH (R117). -/
  | ucodeSwitch
  -- Power and resets (03)
  /-- REGULATOR_START (R77). -/
  | regulatorStart
  /-- PWR_GOOD (R78). -/
  | pwrGood
  /-- RESET_RELEASE (R80). -/
  | resetRelease (mgr : Bool) (feed slot : Nat)
  /-- COLD_RESET (R81). -/
  | coldReset
  /-- VIN_UV_WARN (R82). -/
  | vinUvWarn
  /-- THERMAL_TRIP (R82). -/
  | thermalTrip (sensor tj : Nat)
  /-- STOP_REGULATORS_OFF (R83). -/
  | stopRegulatorsOff
  /-- VIN_COLLAPSE (R75). -/
  | vinCollapse
  /-- VIN_OV_WARN (R75). -/
  | vinOvWarn
  /-- VIN_OV_TRIP (R75). -/
  | vinOvTrip
  /-- AUX_RAIL_FAULT (R75). -/
  | auxRailFault
  /-- THERM_WARN (R86). -/
  | thermWarn (sensor tj : Nat)
  /-- PLL_LOSS_OF_LOCK (R89). -/
  | pllLossOfLock
  /-- AUTO_GATE_ARRAY (R91). -/
  | autoGateArray (n a : Nat)
  /-- AUTO_GATE_VECTOR (R91). -/
  | autoGateVector (n : Nat)
  /-- WARM_RESET (R92). -/
  | warmReset (v : Nat)
  /-- PARTITION_RESET (R93). -/
  | partitionReset (mask : Nat)
  /-- PARTITION_RESET_DONE (R92). -/
  | partitionResetDone (p : Nat)
  /-- PORT_RESET (R94). -/
  | portReset (mask : Nat)
  -- Boot (04)
  /-- BIST (R103). -/
  | bist (fences : List Nat) (narrow ways : List (Nat × Nat)) (engines : List Nat) (fatal : Nat)
  /-- DUNE_TRAIN (R97). -/
  | duneTrain (chans bases : List Nat)
  /-- PUF (R609). -/
  | puf (ok : Bool)
  /-- AXL_TRAINING_DONE (R168). -/
  | axlTrainingDone (ok : Bool) (good : Nat) (rev : Bool) (req snp rsp dat regBase memBase : Nat)
  /-- AXL_RETRAIN (R100). -/
  | axlRetrain
  /-- DEFAULT_PHASE_DONE (R107). -/
  | defaultPhaseDone
  /-- FABRIC_PHASE_END (R101). -/
  | fabricPhaseEnd
  -- The Axoft Link (05)
  /-- AXL_FLIT (R130). -/
  | axlFlit (body : List Byte) (errs : List Nat) (seq ack ty req snp rsp dat : Nat)
  /-- AXL_NAK (R131). -/
  | axlNak (seq : Nat)
  /-- AXL_LINK_LOSS (R165). -/
  | axlLinkLoss
  /-- RD_SHARED (R134). -/
  | rdShared (tag addr : Nat) (ecc : Ecc)
  /-- RD_OWN (R134). -/
  | rdOwn (tag addr : Nat) (ecc : Ecc)
  /-- RD_UC (R134). -/
  | rdUc (tag addr len : Nat) (ecc : Ecc)
  /-- WR_LINE (R134). -/
  | wrLine (tag addr : Nat) (data : List Byte) (poison : Bool)
  /-- WR_PART (R134). -/
  | wrPart (tag addr len : Nat) (data : List Byte) (poison : Bool) (ecc : Ecc)
  /-- EVICT_DIRTY (R134). -/
  | evictDirty (tag addr : Nat) (data : List Byte) (poison : Bool)
  /-- EVICT_CLEAN (R134). -/
  | evictClean (tag addr : Nat)
  /-- ATOMIC (R134). -/
  | atomic (tag addr arg operand compare : Nat) (ecc : Ecc)
  /-- SNP_INV (R145). -/
  | snpInv (tag addr : Nat)
  /-- CMP (R152). -/
  | cmp (tag status : Nat)
  /-- ACK_I (R145). -/
  | ackI (a : InvAnswer)
  /-- ACK_S (R141). -/
  | ackS (a : SnoopAnswer)
  /-- DATA (R134). -/
  | data (tag : Nat) (data : List Byte) (poison : Bool)
  /-- DATA_M (R141). -/
  | dataM (a : SnoopAnswer) (data : List Byte) (poison : Bool)
  /-- AXL_REQ_TIMEOUT (R164). -/
  | axlReqTimeout (tag : Nat)
  /-- EVT_MODERATION_EXPIRY (R159). -/
  | evtModerationExpiry (q : Nat)
  -- Rings, tallies and tasks (06)
  /-- DOORBELL (R177). -/
  | doorbell (q tail : Nat)
  /-- HEAD_WRITE (R179). -/
  | headWrite (q head : Nat)
  /-- RING_ENABLE (R180). -/
  | ringEnable (q : Nat)
  /-- RING_DISABLE (R180). -/
  | ringDisable (q : Nat)
  /-- RING_ACCESS_FAULT (R674). -/
  | ringAccessFault (r : RingRead)
  /-- PARTITION_STOP (R192). -/
  | partitionStop (p v : Nat)
  /-- TALLY_SET (R198). -/
  | tallySet (t v : Nat)
  /-- TALLY_ADD_HOST (R198). -/
  | tallyAddHost (t v : Nat)
  /-- TALLY_CLEAR_FAULTED (R209). -/
  | tallyClearFaulted (t : Nat)
  /-- KERNEL (R184). -/
  | kernel (q : Nat) (bs : List Byte)
  /-- MARKER (R183). -/
  | marker (q : Nat) (bs : List Byte)
  /-- COPY_TASK (R184). -/
  | copyTask (q : Nat) (bs : List Byte)
  /-- GATHERING_PLACE (R675). -/
  | gatheringPlace (p role : Nat)
  /-- TASK_COMPLETE (R193). -/
  | taskComplete (id : Nat)
  -- DEFAULT services (04)
  /-- FILL (R111). -/
  | fill (q : Nat) (bs : List Byte)
  /-- COPY (R111). -/
  | copy (q : Nat) (bs : List Byte)
  /-- MEMTEST (R111). -/
  | memtest (q : Nat) (bs : List Byte) (corr ue : List Nat)
  /-- MATMUL (R111). -/
  | matmul (q : Nat) (bs : List Byte)
  /-- ALLREDUCE (R114). -/
  | allreduce (q : Nat) (bs : List Byte)
  /-- BROADCAST (R111). -/
  | broadcast (q : Nat) (bs : List Byte)
  /-- ALLGATHER (R114). -/
  | allgather (q : Nat) (bs : List Byte)
  /-- REDUCE_SCATTER (R114). -/
  | reduceScatter (q : Nat) (bs : List Byte)
  /-- SERVICE_GROUP_TIMEOUT (R112). -/
  | serviceGroupTimeout (id : Nat)
  -- Fabric sends (17)
  /-- SEND_WRITE (R551). -/
  | sendWrite (q : Nat) (bs : List Byte)
  /-- SEND_READ (R551). -/
  | sendRead (q : Nat) (bs : List Byte)
  /-- SEND_ACCUMULATE (R552). -/
  | sendAccumulate (q : Nat) (bs : List Byte)
  /-- SEND_TALLY_ADD (R551). -/
  | sendTallyAdd (q : Nat) (bs : List Byte)
  /-- SEND_DOORBELL (R551). -/
  | sendDoorbell (q : Nat) (bs : List Byte)
  -- Igtik: ALU (08)
  /-- MOV (R268). -/
  | mov (sel : Sel) (w : BaseW)
  /-- MOVH (R268). -/
  | movh (sel : Sel) (w : BaseW)
  /-- IADD (R268). -/
  | iadd (sel : Sel) (w : BaseW)
  /-- ISUB (R268). -/
  | isub (sel : Sel) (w : BaseW)
  /-- IMUL (R268). -/
  | imul (sel : Sel) (w : BaseW)
  /-- IMULH (R268). -/
  | imulh (sel : Sel) (w : BaseW)
  /-- IMAD (R268). -/
  | imad (sel : Sel) (w : BaseW)
  /-- AND (R268). -/
  | and (sel : Sel) (w : BaseW)
  /-- OR (R268). -/
  | or (sel : Sel) (w : BaseW)
  /-- XOR (R268). -/
  | xor (sel : Sel) (w : BaseW)
  /-- SHL (R268). -/
  | shl (sel : Sel) (w : BaseW)
  /-- SHR (R268). -/
  | shr (sel : Sel) (w : BaseW)
  /-- MIN (R268). -/
  | min (sel : Sel) (w : BaseW)
  /-- MAX (R268). -/
  | max (sel : Sel) (w : BaseW)
  /-- SETP (R268). -/
  | setp (sel : Sel) (w : BaseW)
  /-- PLOP (R268). -/
  | plop (sel : Sel) (w : BaseW)
  /-- SEL (R268). -/
  | sel (sel : Sel) (w : BaseW)
  /-- POPC (R268). -/
  | popc (sel : Sel) (w : BaseW)
  /-- CLZ (R268). -/
  | clz (sel : Sel) (w : BaseW)
  /-- SHFL (R268). -/
  | shfl (sel : Sel) (w : BaseW)
  /-- VOTE (R268). -/
  | vote (sel : Sel) (w : BaseW)
  -- Igtik: FPU and conversion
  /-- FADD (R269). -/
  | fadd (sel : Sel) (w : BaseW)
  /-- FMUL (R269). -/
  | fmul (sel : Sel) (w : BaseW)
  /-- FFMA (R269). -/
  | ffma (sel : Sel) (w : BaseW)
  /-- FMIN (R269). -/
  | fmin (sel : Sel) (w : BaseW)
  /-- FMAX (R269). -/
  | fmax (sel : Sel) (w : BaseW)
  /-- FRCP (R270). -/
  | frcp (sel : Sel) (w : BaseW)
  /-- FRSQ (R270). -/
  | frsq (sel : Sel) (w : BaseW)
  /-- FEXP2 (R270). -/
  | fexp2 (sel : Sel) (w : BaseW)
  /-- FLOG2 (R270). -/
  | flog2 (sel : Sel) (w : BaseW)
  /-- CVT (R271). -/
  | cvt (sel : Sel) (w : BaseW)
  -- Igtik: control
  /-- BRA (R273). -/
  | bra (sel : Sel) (w : BaseW)
  /-- BRA_R (R273). -/
  | braR (sel : Sel) (w : BaseW)
  /-- EXIT (R273). -/
  | exit (sel : Sel) (w : BaseW)
  /-- NOP (R273). -/
  | nop (sel : Sel) (w : BaseW)
  -- Igtik: memory and atomics
  /-- LD (R274). -/
  | ld (sel : Sel) (w : BaseW) (hit : Bool)
  /-- ST (R275). -/
  | st (sel : Sel) (w : BaseW) (ecc : Ecc)
  /-- ATOM_ADD (R276). -/
  | atomAdd (sel : Sel) (w : BaseW)
  /-- ATOM_MIN (R276). -/
  | atomMin (sel : Sel) (w : BaseW)
  /-- ATOM_MAX (R276). -/
  | atomMax (sel : Sel) (w : BaseW)
  /-- ATOM_AND (R276). -/
  | atomAnd (sel : Sel) (w : BaseW)
  /-- ATOM_OR (R276). -/
  | atomOr (sel : Sel) (w : BaseW)
  /-- ATOM_XOR (R276). -/
  | atomXor (sel : Sel) (w : BaseW)
  /-- ATOM_SWAP (R276). -/
  | atomSwap (sel : Sel) (w : BaseW)
  /-- ATOM_CAS (R276). -/
  | atomCas (sel : Sel) (w : BaseW)
  -- Igtik: synchronisation (07, 09)
  /-- BAR_C (R233). -/
  | barC (sel : Sel) (w : BaseW)
  /-- BAR_G (R234). -/
  | barG (sel : Sel) (w : BaseW)
  /-- ARRIVE (R302). -/
  | arrive (sel : Sel) (w : BaseW)
  /-- AWAIT (R302). -/
  | await (sel : Sel) (w : BaseW)
  /-- TALLY_ADD (R279). -/
  | tallyAdd (sel : Sel) (w : BaseW)
  /-- TALLY_WAIT (R279). -/
  | tallyWait (sel : Sel) (w : BaseW)
  /-- FENCE (R278). -/
  | fence (sel : Sel) (w : BaseW)
  -- The matrix unit (10)
  /-- MTILE_F (R341). -/
  | mtileF (sel : Sel) (w : LongW)
  /-- MTILE_B (R342). -/
  | mtileB (sel : Sel) (w : LongW)
  /-- MTILE_X (R356). -/
  | mtileX (sel : Sel) (w : LongW)
  /-- MLOAD (R345). -/
  | mload (sel : Sel) (w : LongW)
  /-- MLOAD_T (R345). -/
  | mloadT (sel : Sel) (w : LongW)
  /-- MSTORE (R350). -/
  | mstore (sel : Sel) (w : LongW)
  /-- MTX_PASS_START (R354). -/
  | mtxPassStart (n : Nat)
  /-- MTX_PASS_RESULT (R354). -/
  | mtxPassResult (n : Nat)
  /-- MTX_WEIGHT_LOAD_START (R354). -/
  | mtxWeightLoadStart (n : Nat)
  /-- MTX_WEIGHT_SET_READY (R354). -/
  | mtxWeightSetReady (n : Nat)
  /-- MTX_ACC_READ_START (R354). -/
  | mtxAccReadStart (n : Nat)
  -- The vector engine (12)
  /-- VOP (R398). -/
  | vop (sel : Sel) (w : LongW)
  /-- VCOMPRESS (R407). -/
  | vcompress (sel : Sel) (w : LongW)
  /-- VEXPAND (R408). -/
  | vexpand (sel : Sel) (w : LongW)
  /-- VRED (R411). -/
  | vred (sel : Sel) (w : LongW)
  /-- VLD (R405). -/
  | vld (sel : Sel) (w : LongW)
  /-- VST (R405). -/
  | vst (sel : Sel) (w : LongW)
  /-- VEC_INSTRUCTION_START (R401). -/
  | vecInstructionStart (n : Nat)
  /-- VEC_INSTRUCTION_END (R403). -/
  | vecInstructionEnd (n id : Nat)
  -- The access engine (09)
  /-- ACOPY (R305). -/
  | acopy (sel : Sel) (w : LongW)
  /-- ACOPY_DONE (R307). -/
  | acopyDone (n id : Nat)
  /-- ASTART (R312). -/
  | astart (sel : Sel) (w : LongW)
  /-- ASTOP (R320). -/
  | astop (sel : Sel) (w : LongW)
  /-- STREAM_ROW_FETCH (R315). -/
  | streamRowFetch (n c : Nat)
  /-- STREAM_ROW_LAND (R313). -/
  | streamRowLand (n c r : Nat) (ecc : Ecc)
  /-- PREFETCH_DROP (R317). -/
  | prefetchDrop (n c r : Nat)
  /-- STREAM_ROW_WRITE (R315). -/
  | streamRowWrite (n c : Nat)
  /-- STREAM_ROW_ACCEPTED (R313). -/
  | streamRowAccepted (n c r : Nat)
  /-- STREAM_DRAINED (R320). -/
  | streamDrained (n c : Nat)
  -- Threads (07)
  /-- SLOT_DRAINED (R217). -/
  | slotDrained (n slot : Nat)
  /-- MEM_DATA_ARRIVAL (R230). -/
  | memDataArrival (id : Nat) (ecc : Ecc)
  /-- BARRIER_WATCHDOG (R244). -/
  | barrierWatchdog (n k : Nat)
  -- Training, gathers and epochs (12, 13, 14)
  /-- DMASK (R418). -/
  | dmask (sel : Sel) (w : LongW)
  /-- PGATHER (R434). -/
  | pgather (sel : Sel) (g : GatherWord)
  /-- PGATHER_ADMIT (R434). -/
  | pgatherAdmit (n : Nat) (g : GatherRead)
  /-- PGATHER_DONE (R432). -/
  | pgatherDone (n id : Nat)
  /-- GSEND (R497). -/
  | gsend (sel : Sel) (w : LongW)
  /-- PROOF_OPEN (R444). -/
  | proofOpen (sel : Sel) (w : LongW)
  /-- PROOF_COMMIT (R441). -/
  | proofCommit (sel : Sel) (w : LongW)
  /-- PROOF_DISCARD (R441). -/
  | proofDiscard (sel : Sel) (w : LongW)
  /-- EPOCH_INSTALL_DONE (R454). -/
  | epochInstallDone (p e : Nat)
  /-- TRN_STEP_WRITE (R425). -/
  | trnStepWrite (p v : Nat)
  /-- TRN_LS_WRITE (R425). -/
  | trnLsWrite (p v : Nat)
  -- Dunes (15)
  /-- SCRUB_READ (R478). -/
  | scrubRead (c line : Nat) (ecc : Ecc) (pass : Bool)
  /-- REFRESH (R479). -/
  | refresh (c bank : Nat)
  /-- DUNE_HOT (R479). -/
  | duneHot (b tj : Nat)
  /-- DUNE_COOL (R479). -/
  | duneCool (b tj : Nat)
  -- Gradient reduction (16)
  /-- REDUCE (R512). -/
  | reduce (port : Nat) (k : Pkt)
  /-- REDUCE_ANSWER (R513). -/
  | reduceAnswer (port : Nat) (k : Pkt)
  /-- REDUCE_RESEND (R513). -/
  | reduceResend (p step attempt tile mb : Nat)
  /-- TREE_EVALUATE (R508). -/
  | treeEvaluate (p tile : Nat)
  /-- ROOT_WRITE (R508). -/
  | rootWrite (p tile : Nat)
  /-- RANK_DONE (R518). -/
  | rankDone (port : Nat) (k : Pkt)
  /-- SENDS_CLOSED (R519). -/
  | sendsClosed (port : Nat) (k : Pkt)
  /-- OWNER_DONE_SEND (R519). -/
  | ownerDoneSend
  /-- OWNER_DONE (R520). -/
  | ownerDone (port : Nat) (k : Pkt)
  /-- STEP_DEADLINE (R520). -/
  | stepDeadline
  /-- DECISION (R560). -/
  | decision (port : Nat) (k : Pkt)
  /-- INIT_BROADCAST (R558). -/
  | initBroadcast
  /-- HALT (R561). -/
  | halt (port : Nat) (k : Pkt)
  -- The optical fabric (17)
  /-- FABRIC_FLIT (R531). -/
  | fabricFlit (j : Nat) (good : Bool) (seq ack ty credits crTc crVl : Nat) (peer : Option Nat)
  /-- FABRIC_NAK (R531). -/
  | fabricNak (j seq : Nat)
  /-- FABRIC_REPLAY_TIMEOUT (R531). -/
  | fabricReplayTimeout (j : Nat)
  /-- LINK_LOSS (R533). -/
  | linkLoss (j : Nat)
  /-- PORT_TRAINED (R526). -/
  | portTrained (j width slot port : Nat) (mgr : Bool) (job : Option Nat) (rank rtt : Nat)
  /-- PORT_TRAIN_RETRY (R526). -/
  | portTrainRetry (j : Nat)
  /-- LASER_LOSS (R666). -/
  | laserLoss (m : Nat)
  /-- WRITE (R552). -/
  | write (port : Nat) (k : Pkt)
  /-- READ_REQ (R554). -/
  | readReq (port : Nat) (k : Pkt) (ecc : Ecc)
  /-- READ_DATA (R548). -/
  | readData (port : Nat) (k : Pkt)
  /-- ACCUMULATE (R552). -/
  | accumulate (port : Nat) (k : Pkt)
  /-- REMOTE_INCREMENT (R200). -/
  | remoteIncrement (port : Nat) (k : Pkt)
  /-- REMOTE_DOORBELL (R177). -/
  | remoteDoorbell (port : Nat) (k : Pkt)
  /-- E2E_ACK (R543). -/
  | e2eAck (port : Nat) (k : Pkt)
  /-- E2E_RESEND (R547). -/
  | e2eResend (request bySlot : Bool) (dest key : Nat)
  /-- GATHER_REQ (R433). -/
  | gatherReq (port : Nat) (k : Pkt) (ecc : Ecc)
  /-- GATHER_DATA (R432). -/
  | gatherData (port : Nat) (k : Pkt)
  /-- MIRROR (R589). -/
  | mirror (port : Nat) (k : Pkt)
  /-- FAULT_RECORD (R581). -/
  | faultRecord (port : Nat) (k : Pkt)
  /-- JOIN (R557). -/
  | join (port : Nat) (k : Pkt)
  /-- PING (R565). -/
  | ping (port : Nat) (k : Pkt)
  /-- PONG (R565). -/
  | pong (port : Nat) (k : Pkt)
  /-- OFFSET (R566). -/
  | offset (port : Nat) (k : Pkt)
  /-- SERVICE (R554). -/
  | service (port : Nat) (k : Pkt)
  /-- ALIGNMENT_PERIOD (R565). -/
  | alignmentPeriod
  /-- MANAGER_LOST (R564). -/
  | managerLost
  -- Faults, fills and snapshots (18)
  /-- SEQUENCER_MISMATCH (R571). -/
  | sequencerMismatch (cls n : Nat)
  /-- UNIT_WATCHDOG (R572). -/
  | unitWatchdog (cls n : Nat)
  /-- FILL_START (R595). -/
  | fillStart
  /-- FILL_ABORT (R598). -/
  | fillAbort
  /-- FILL_DONE (R595). -/
  | fillDone
  /-- FILL_DATA (R596). -/
  | fillData (port : Nat) (k : Pkt)
  /-- SNAPSHOT_ENABLE (R600). -/
  | snapshotEnable (v : Nat)
  /-- SNAPSHOT_ARM (R601). -/
  | snapshotArm (t : Nat)
  /-- SNAPSHOT_CANCEL (R605). -/
  | snapshotCancel
  /-- SNAPSHOT_RESTORE (R606). -/
  | snapshotRestore
  /-- SNAPSHOT_DONE (R603). -/
  | snapshotDone
  /-- SNAPSHOT_DRIVE_ERROR (R603). -/
  | snapshotDriveError
  /-- RESTORE_DONE (R606). -/
  | restoreDone (h0 h1 content : List Byte)
  -- Security (19)
  /-- SIGNER_LOAD (R614). -/
  | signerLoad
  /-- SIGNER_LOAD_DONE (R614). -/
  | signerLoadDone (bs : List Byte)
  /-- SIGNER_LOCK (R615). -/
  | signerLock
  /-- MEASUREMENT_EXTEND (R620). -/
  | measurementExtend (v : Nat)
  /-- LOG_RELEASE (R621). -/
  | logRelease (seq : Nat)
  /-- QUOTE_REQUEST (R622). -/
  | quoteRequest (v : Nat)
  /-- QUOTE_DONE (R623). -/
  | quoteDone
  -- Monitoring (20)
  /-- MON_CLEAR (R648). -/
  | monClear
  /-- MON_LATCH (R631). -/
  | monLatch (p : Nat)
  /-- MON_PART_CLEAR (R631). -/
  | monPartClear (p : Nat)
  /-- PC_SAMPLE (R632). -/
  | pcSample (p : Nat) (picks : List (Nat × Nat × Nat))
  /-- HANG_SNAPSHOT (R638). -/
  | hangSnapshot
  /-- PARTITION_HANG_SNAPSHOT (R638). -/
  | partitionHangSnapshot (p : Nat)
  /-- HANG_CAPTURE_DONE (R643). -/
  | hangCaptureDone
  /-- RING_MARK (R646). -/
  | ringMark (v : Nat)
  /-- AFTER_FAULT_EXPIRY (R645). -/
  | afterFaultExpiry
  -- Later rows of the table
  /-- LASER_LIGHT_RESTORED (R525). -/
  | laserLightRestored (m : Nat)
  /-- UCODE_FETCHED (R119). -/
  | ucodeFetched (bs : List Byte)
  /-- SNAPSHOT_PORT_TRAINED (R600). -/
  | snapshotPortTrained (drives : Nat)
  /-- TC0_LOAD_WINDOW (R550). -/
  | tc0LoadWindow (j tc0 cap : Nat)
  /-- PWR_VIN_UPDATE (R96). -/
  | pwrVinUpdate (mv amp watt : Nat)
  deriving DecidableEq, Repr

end Sys2Proof
end

