-- ==== Sys2Proof/Config.lean ====
section
/-! DEFINITION. What one device fixes and what the spec leaves open: constants with no body, so that no proof can see
their value. -/

namespace Sys2Proof

/-- SM3 over a byte string, as its 32 bytes read little-endian (R34; log 7). -/
opaque Config.sm3 : List Byte → BitVec 256

/-- SM2 verification of a 64-byte signature over a message under a 64-byte public key (R613, R616; log 7). -/
opaque Config.sm2Verify : (pubkey message signature : List Byte) → Bool

/-- The 64 bytes of an SM2 signature by the device's identity key (R622, R624; log 7). -/
opaque Config.sm2Sign : (message : List Byte) → BitVec 512

/-- The public half of the identity key derived in the PUF phase (R609, R610; log 7). -/
opaque Config.identityKey : BitVec 512

/-- SM3 over the vendor root public key, in mask ROM (R614, SEC_ROOT_DIGEST; log 7). -/
opaque Config.rootDigest : BitVec 256

/-- The digest of the mask-ROM microcode (CFG_UCODE_DIGEST after reset; log 7). -/
opaque Config.romUcodeDigest : BitVec 256

/-- The digest of the mask ROM and CFG_DEVICE_ID that extends MR0 (R618; log 7). -/
opaque Config.romDigest : BitVec 256

/-- What the registers, device memory and the leaves hold after a loss of regulation, by the number of the use: lists of
offset and value, of key and byte, and of quire, byte address and byte (R86; log 97). -/
opaque Config.lostRegs : Nat → List (Nat × DWord)
opaque Config.lostMem : Nat → List (Nat × Byte)
opaque Config.lostLeaves : Nat → List (Nat × Nat × Byte)

/-- A value the spec leaves open, by the number of the use (Eng.free counts the uses). -/
opaque Config.freeValue : Nat → BitVec 64

/-- SM4 on one 16-byte block, key and block and result as their bytes read little-endian (R481; log 50). -/
opaque Config.sm4 : (key block : BitVec 128) → BitVec 128

/-- The key pair of a partition after a number of draws, the data key in the low half (R483, R625; log 50). -/
opaque Config.memoryKey : (part draws : Nat) → BitVec 256

/-- The FP32 value of one element of a MATMUL whose sum depends on the order of summation, which the spec does not
state: the format, the row of A and the column of B as their codes, and the element of C, where it is added, as its FP32 code
(R113, R384; log 15). -/
opaque Config.matmulSum : (fmt : Nat) → (a b : List Nat) → (c : Option Nat) → Word

/-- FRCP on one lane (R270; log 8). -/
opaque Config.frcp : Word → Word

/-- FRSQ on one lane (R270; log 8). -/
opaque Config.frsq : Word → Word

/-- FEXP2 on one lane (R270; log 8). -/
opaque Config.fexp2 : Word → Word

/-- FLOG2 on one lane (R270; log 8). -/
opaque Config.flog2 : Word → Word

end Sys2Proof
end

