-- ==== Sys2Proof/Machine/RegMap.lean ====
section
/-! DEFINITION. The device register space: where every register of the spec lies, how wide it is, which bits
software may read, write, clear or only act on (R4), its reset value (R6) and its named fields. Offsets are those of
the register window of R23. A register instance is named by its indices, outermost first (queue, tally, quire, dune,
port or partition, then the index inside it). -/

namespace Sys2Proof.Machine

/-- CFG_DEVICE_ID (R32). -/
def CFG_DEVICE_ID : Nat := 0x0
def CFG_DEVICE_ID_VENDOR : Fld := ⟨CFG_DEVICE_ID, 24, 8⟩
def CFG_DEVICE_ID_FAMILY : Fld := ⟨CFG_DEVICE_ID, 16, 8⟩
def CFG_DEVICE_ID_MEMBER : Fld := ⟨CFG_DEVICE_ID, 8, 8⟩
def CFG_DEVICE_ID_STEP_MAJOR : Fld := ⟨CFG_DEVICE_ID, 4, 4⟩
def CFG_DEVICE_ID_STEP_MINOR : Fld := ⟨CFG_DEVICE_ID, 0, 4⟩
/-- CFG_BAD_ACCESS (R33). -/
def CFG_BAD_ACCESS : Nat := 0x8
def CFG_BAD_ACCESS_COUNT : Fld := ⟨CFG_BAD_ACCESS, 0, 32⟩
/-- CFG_IMAGE_ADDR (R72). -/
def CFG_IMAGE_ADDR : Nat := 0x100
def CFG_IMAGE_ADDR_ADDR : Fld := ⟨CFG_IMAGE_ADDR, 0, 64⟩
/-- CFG_IMAGE_LEN (R72). -/
def CFG_IMAGE_LEN : Nat := 0x108
def CFG_IMAGE_LEN_LEN : Fld := ⟨CFG_IMAGE_LEN, 0, 32⟩
/-- CFG_OVERLAY_SCOPE (R72). -/
def CFG_OVERLAY_SCOPE : Nat := 0x110
def CFG_OVERLAY_SCOPE_PARTS : Fld := ⟨CFG_OVERLAY_SCOPE, 0, 64⟩
/-- CFG_IMAGE_CTRL (R72). -/
def CFG_IMAGE_CTRL : Nat := 0x118
def CFG_IMAGE_CTRL_LOAD : Fld := ⟨CFG_IMAGE_CTRL, 0, 1⟩
def CFG_IMAGE_CTRL_SEAL : Fld := ⟨CFG_IMAGE_CTRL, 1, 1⟩
def CFG_IMAGE_CTRL_REVERT : Fld := ⟨CFG_IMAGE_CTRL, 2, 1⟩
def CFG_IMAGE_CTRL_CANCEL : Fld := ⟨CFG_IMAGE_CTRL, 3, 1⟩
/-- CFG_IMAGE_STATUS (R72). -/
def CFG_IMAGE_STATUS : Nat := 0x120
def CFG_IMAGE_STATUS_STATE : Fld := ⟨CFG_IMAGE_STATUS, 0, 3⟩
def CFG_IMAGE_STATUS_UNQUALIFIED : Fld := ⟨CFG_IMAGE_STATUS, 3, 1⟩
def CFG_IMAGE_STATUS_FENCED_DURING_LOAD : Fld := ⟨CFG_IMAGE_STATUS, 4, 1⟩
def CFG_IMAGE_STATUS_ERROR : Fld := ⟨CFG_IMAGE_STATUS, 8, 8⟩
def CFG_IMAGE_STATUS_ERROR_RECORD : Fld := ⟨CFG_IMAGE_STATUS, 16, 16⟩
/-- CFG_ACTIVE_IMAGE (R72). -/
def CFG_ACTIVE_IMAGE : Nat := 0x128
def CFG_ACTIVE_IMAGE_MODE : Fld := ⟨CFG_ACTIVE_IMAGE, 0, 8⟩
def CFG_ACTIVE_IMAGE_MANAGER : Fld := ⟨CFG_ACTIVE_IMAGE, 8, 1⟩
def CFG_ACTIVE_IMAGE_LOADED : Fld := ⟨CFG_ACTIVE_IMAGE, 9, 1⟩
/-- CFG_IMAGE_COUNT (R72). -/
def CFG_IMAGE_COUNT : Nat := 0x130
def CFG_IMAGE_COUNT_LOADS : Fld := ⟨CFG_IMAGE_COUNT, 0, 16⟩
def CFG_IMAGE_COUNT_REJECTS : Fld := ⟨CFG_IMAGE_COUNT, 16, 16⟩
def CFG_IMAGE_COUNT_SKIPPED : Fld := ⟨CFG_IMAGE_COUNT, 32, 16⟩
def CFG_IMAGE_COUNT_IGNORED_CTRL : Fld := ⟨CFG_IMAGE_COUNT, 48, 16⟩
/-- CFG_SEAL_STATUS (R72). -/
def CFG_SEAL_STATUS : Nat := 0x138
def CFG_SEAL_STATUS_SEALED : Fld := ⟨CFG_SEAL_STATUS, 0, 1⟩
def CFG_SEAL_STATUS_IGNORED_WRITES : Fld := ⟨CFG_SEAL_STATUS, 32, 32⟩
/-- CFG_OVERLAY_TIMEOUT (R72). -/
def CFG_OVERLAY_TIMEOUT : Nat := 0x140
def CFG_OVERLAY_TIMEOUT_TCYCLES : Fld := ⟨CFG_OVERLAY_TIMEOUT, 0, 32⟩
/-- CFG_BASE_DIGEST (R72). -/
def CFG_BASE_DIGEST (i : Nat) : Nat := 0x200 + i * 0x8
def CFG_BASE_DIGEST_DIGEST (i : Nat) : Fld := ⟨(CFG_BASE_DIGEST i), 0, 64⟩
/-- CFG_MODE_DIGEST (R72). -/
def CFG_MODE_DIGEST (i : Nat) : Nat := 0x220 + i * 0x8
def CFG_MODE_DIGEST_DIGEST (i : Nat) : Fld := ⟨(CFG_MODE_DIGEST i), 0, 64⟩
/-- CFG_MGR_DIGEST (R72). -/
def CFG_MGR_DIGEST (i : Nat) : Nat := 0x240 + i * 0x8
def CFG_MGR_DIGEST_DIGEST (i : Nat) : Fld := ⟨(CFG_MGR_DIGEST i), 0, 64⟩
/-- PWR_STATUS (R96). -/
def PWR_STATUS : Nat := 0x100000
def PWR_STATUS_PLL_LOCK : Fld := ⟨PWR_STATUS, 0, 1⟩
def PWR_STATUS_AUTO_GATED : Fld := ⟨PWR_STATUS, 1, 1⟩
def PWR_STATUS_UV_WARN : Fld := ⟨PWR_STATUS, 4, 1⟩
def PWR_STATUS_OV_WARN : Fld := ⟨PWR_STATUS, 5, 1⟩
def PWR_STATUS_THERM_WARN : Fld := ⟨PWR_STATUS, 6, 1⟩
def PWR_STATUS_THERM_TRIP : Fld := ⟨PWR_STATUS, 7, 1⟩
/-- PWR_VIN (R96). -/
def PWR_VIN : Nat := 0x100008
def PWR_VIN_VIN_MV : Fld := ⟨PWR_VIN, 0, 16⟩
def PWR_VIN_IIN_10MA : Fld := ⟨PWR_VIN, 16, 16⟩
def PWR_VIN_PIN_W : Fld := ⟨PWR_VIN, 32, 16⟩
/-- PWR_TEMP_MAX (R96). -/
def PWR_TEMP_MAX : Nat := 0x100010
def PWR_TEMP_MAX_TJ : Fld := ⟨PWR_TEMP_MAX, 0, 16⟩
def PWR_TEMP_MAX_SENSOR : Fld := ⟨PWR_TEMP_MAX, 16, 8⟩
/-- PWR_UV_WARN (R96). -/
def PWR_UV_WARN : Nat := 0x100018
def PWR_UV_WARN_MV : Fld := ⟨PWR_UV_WARN, 0, 16⟩
/-- PWR_THERM_WARN (R96). -/
def PWR_THERM_WARN : Nat := 0x10001C
def PWR_THERM_WARN_DEG_C : Fld := ⟨PWR_THERM_WARN, 0, 8⟩
/-- PWR_GATE_CTRL (R96). -/
def PWR_GATE_CTRL : Nat := 0x100020
def PWR_GATE_CTRL_AUTO_GATE : Fld := ⟨PWR_GATE_CTRL, 0, 1⟩
/-- PWR_RESET_CTRL (R96). -/
def PWR_RESET_CTRL : Nat := 0x100028
def PWR_RESET_CTRL_WARM : Fld := ⟨PWR_RESET_CTRL, 0, 1⟩
def PWR_RESET_CTRL_KEY : Fld := ⟨PWR_RESET_CTRL, 16, 16⟩
/-- PWR_PART_RESET (R96). -/
def PWR_PART_RESET : Nat := 0x100030
def PWR_PART_RESET_PARTS : Fld := ⟨PWR_PART_RESET, 0, 64⟩
/-- PWR_PORT_RESET (R96). -/
def PWR_PORT_RESET : Nat := 0x100038
def PWR_PORT_RESET_PORTS : Fld := ⟨PWR_PORT_RESET, 0, 32⟩
/-- PWR_RESET_BUSY (R96). -/
def PWR_RESET_BUSY : Nat := 0x100040
def PWR_RESET_BUSY_PARTS : Fld := ⟨PWR_RESET_BUSY, 0, 64⟩
/-- PWR_PORT_BUSY (R96). -/
def PWR_PORT_BUSY : Nat := 0x100048
def PWR_PORT_BUSY_PORTS : Fld := ⟨PWR_PORT_BUSY, 0, 32⟩
/-- PWR_EVENT_COUNT (R96). -/
def PWR_EVENT_COUNT : Nat := 0x100050
def PWR_EVENT_COUNT_WARM : Fld := ⟨PWR_EVENT_COUNT, 0, 16⟩
def PWR_EVENT_COUNT_PARTITION : Fld := ⟨PWR_EVENT_COUNT, 16, 16⟩
def PWR_EVENT_COUNT_PORT : Fld := ⟨PWR_EVENT_COUNT, 32, 16⟩
def PWR_EVENT_COUNT_WARNINGS : Fld := ⟨PWR_EVENT_COUNT, 48, 16⟩
/-- PWR_STAMP (R96). -/
def PWR_STAMP : Nat := 0x100058
def PWR_STAMP_TCYCLES : Fld := ⟨PWR_STAMP, 0, 64⟩
/-- PWR_WARN_COUNT (R96). -/
def PWR_WARN_COUNT : Nat := 0x100060
def PWR_WARN_COUNT_OV : Fld := ⟨PWR_WARN_COUNT, 0, 32⟩
def PWR_WARN_COUNT_THERM : Fld := ⟨PWR_WARN_COUNT, 32, 32⟩
/-- PWR_BOOT_STATUS (R122). -/
def PWR_BOOT_STATUS : Nat := 0x100100
def PWR_BOOT_STATUS_PHASE : Fld := ⟨PWR_BOOT_STATUS, 0, 4⟩
def PWR_BOOT_STATUS_WARM : Fld := ⟨PWR_BOOT_STATUS, 4, 1⟩
def PWR_BOOT_STATUS_PUF_FAILED : Fld := ⟨PWR_BOOT_STATUS, 5, 1⟩
def PWR_BOOT_STATUS_AXL_RETRIED : Fld := ⟨PWR_BOOT_STATUS, 6, 1⟩
def PWR_BOOT_STATUS_FAIL_CODE : Fld := ⟨PWR_BOOT_STATUS, 8, 8⟩
def PWR_BOOT_STATUS_FENCED : Fld := ⟨PWR_BOOT_STATUS, 16, 16⟩
def PWR_BOOT_STATUS_NARROWED : Fld := ⟨PWR_BOOT_STATUS, 32, 16⟩
/-- PWR_BOOT_END (R122). -/
def PWR_BOOT_END (i : Nat) : Nat := 0x100108 + i * 0x8
def PWR_BOOT_END_TCYCLES (i : Nat) : Fld := ⟨(PWR_BOOT_END i), 0, 64⟩
/-- CFG_UCODE_ADDR (R122). -/
def CFG_UCODE_ADDR : Nat := 0x300
def CFG_UCODE_ADDR_ADDR : Fld := ⟨CFG_UCODE_ADDR, 0, 64⟩
/-- CFG_UCODE_LEN (R122). -/
def CFG_UCODE_LEN : Nat := 0x308
def CFG_UCODE_LEN_LEN : Fld := ⟨CFG_UCODE_LEN, 0, 32⟩
/-- CFG_UCODE_CTRL (R122). -/
def CFG_UCODE_CTRL : Nat := 0x310
def CFG_UCODE_CTRL_LOAD : Fld := ⟨CFG_UCODE_CTRL, 0, 1⟩
/-- CFG_UCODE_STATUS (R122). -/
def CFG_UCODE_STATUS : Nat := 0x318
def CFG_UCODE_STATUS_SOURCE : Fld := ⟨CFG_UCODE_STATUS, 0, 1⟩
def CFG_UCODE_STATUS_ERROR : Fld := ⟨CFG_UCODE_STATUS, 8, 8⟩
def CFG_UCODE_STATUS_LOADS : Fld := ⟨CFG_UCODE_STATUS, 16, 16⟩
/-- CFG_UCODE_DIGEST (R122). -/
def CFG_UCODE_DIGEST (i : Nat) : Nat := 0x320 + i * 0x8
def CFG_UCODE_DIGEST_DIGEST (i : Nat) : Fld := ⟨(CFG_UCODE_DIGEST i), 0, 64⟩
/-- CFG_DEFAULT_MEM (R122). -/
def CFG_DEFAULT_MEM : Nat := 0x340
def CFG_DEFAULT_MEM_BYTES : Fld := ⟨CFG_DEFAULT_MEM, 0, 48⟩
def CFG_DEFAULT_MEM_EARLY_REQ : Fld := ⟨CFG_DEFAULT_MEM, 48, 16⟩
/-- CFG_BOOT_LOG_COUNT (R122). -/
def CFG_BOOT_LOG_COUNT : Nat := 0x348
def CFG_BOOT_LOG_COUNT_ENTRIES : Fld := ⟨CFG_BOOT_LOG_COUNT, 0, 7⟩
def CFG_BOOT_LOG_COUNT_LOST : Fld := ⟨CFG_BOOT_LOG_COUNT, 32, 32⟩
/-- AXL_STATUS (R169). -/
def AXL_STATUS : Nat := 0xC00000
def AXL_STATUS_STATE : Fld := ⟨AXL_STATUS, 0, 3⟩
def AXL_STATUS_WIDTH : Fld := ⟨AXL_STATUS, 3, 2⟩
def AXL_STATUS_REVERSED : Fld := ⟨AXL_STATUS, 5, 1⟩
def AXL_STATUS_EPOCH : Fld := ⟨AXL_STATUS, 16, 16⟩
/-- AXL_LANES (R169). -/
def AXL_LANES : Nat := 0xC00008
def AXL_LANES_GOOD : Fld := ⟨AXL_LANES, 0, 16⟩
def AXL_LANES_USED : Fld := ⟨AXL_LANES, 16, 16⟩
/-- AXL_REG_BAR (R169). -/
def AXL_REG_BAR : Nat := 0xC00010
def AXL_REG_BAR_BASE : Fld := ⟨AXL_REG_BAR, 0, 64⟩
/-- AXL_MEM_BAR (R169). -/
def AXL_MEM_BAR : Nat := 0xC00018
def AXL_MEM_BAR_BASE : Fld := ⟨AXL_MEM_BAR, 0, 64⟩
/-- AXL_PEER_CREDITS (R169). -/
def AXL_PEER_CREDITS : Nat := 0xC00020
def AXL_PEER_CREDITS_REQ : Fld := ⟨AXL_PEER_CREDITS, 0, 16⟩
def AXL_PEER_CREDITS_SNP : Fld := ⟨AXL_PEER_CREDITS, 16, 16⟩
def AXL_PEER_CREDITS_RSP : Fld := ⟨AXL_PEER_CREDITS, 32, 16⟩
def AXL_PEER_CREDITS_DAT : Fld := ⟨AXL_PEER_CREDITS, 48, 16⟩
/-- AXL_LINK_COUNT (R169). -/
def AXL_LINK_COUNT : Nat := 0xC00028
def AXL_LINK_COUNT_FEC_CORRECTED : Fld := ⟨AXL_LINK_COUNT, 0, 32⟩
def AXL_LINK_COUNT_REPLAYS : Fld := ⟨AXL_LINK_COUNT, 32, 16⟩
def AXL_LINK_COUNT_LOSSES : Fld := ⟨AXL_LINK_COUNT, 48, 16⟩
/-- AXL_CONTAIN_COUNT (R169). -/
def AXL_CONTAIN_COUNT : Nat := 0xC00030
def AXL_CONTAIN_COUNT_POISON_RX : Fld := ⟨AXL_CONTAIN_COUNT, 0, 16⟩
def AXL_CONTAIN_COUNT_POISON_TX : Fld := ⟨AXL_CONTAIN_COUNT, 16, 16⟩
def AXL_CONTAIN_COUNT_TIMEOUTS : Fld := ⟨AXL_CONTAIN_COUNT, 32, 16⟩
def AXL_CONTAIN_COUNT_WINDOW : Fld := ⟨AXL_CONTAIN_COUNT, 48, 16⟩
/-- AXL_FILTER_STATUS (R169). -/
def AXL_FILTER_STATUS : Nat := 0xC00038
def AXL_FILTER_STATUS_HOLDER_USED : Fld := ⟨AXL_FILTER_STATUS, 0, 26⟩
def AXL_FILTER_STATUS_SNOOP_USED : Fld := ⟨AXL_FILTER_STATUS, 32, 23⟩
/-- AXL_REQ_TIMEOUT (R169). -/
def AXL_REQ_TIMEOUT : Nat := 0xC00040
def AXL_REQ_TIMEOUT_TCYCLES : Fld := ⟨AXL_REQ_TIMEOUT, 0, 32⟩
/-- AXL_EVT_MOD (R169). -/
def AXL_EVT_MOD : Nat := 0xC00048
def AXL_EVT_MOD_TCYCLES : Fld := ⟨AXL_EVT_MOD, 0, 16⟩
/-- AXL_EVT_LOST (R169). -/
def AXL_EVT_LOST : Nat := 0xC00050
def AXL_EVT_LOST_COUNT : Fld := ⟨AXL_EVT_LOST, 0, 32⟩
/-- AXL_HWIN_BASE (R169). -/
def AXL_HWIN_BASE (i : Nat) : Nat := 0xC01000 + i * 0x10
def AXL_HWIN_BASE_EN (i : Nat) : Fld := ⟨(AXL_HWIN_BASE i), 0, 1⟩
def AXL_HWIN_BASE_WRITE (i : Nat) : Fld := ⟨(AXL_HWIN_BASE i), 1, 1⟩
def AXL_HWIN_BASE_BASE (i : Nat) : Fld := ⟨(AXL_HWIN_BASE i), 12, 52⟩
/-- AXL_HWIN_LIMIT (R169). -/
def AXL_HWIN_LIMIT (i : Nat) : Nat := 0xC01008 + i * 0x10
def AXL_HWIN_LIMIT_LIMIT (i : Nat) : Fld := ⟨(AXL_HWIN_LIMIT i), 12, 52⟩
/-- CFG_HOST_EVENT_QUEUE (R205). -/
def CFG_HOST_EVENT_QUEUE : Nat := 0x400
def CFG_HOST_EVENT_QUEUE_QUEUE : Fld := ⟨CFG_HOST_EVENT_QUEUE, 0, 18⟩
/-- PART_INFO (R207). -/
def PART_INFO (i : Nat) : Nat := 0x1500000 + i * 0x10000
def PART_INFO_FORMED (i : Nat) : Fld := ⟨(PART_INFO i), 0, 1⟩
def PART_INFO_SIGNATURES (i : Nat) : Fld := ⟨(PART_INFO i), 16, 8⟩
def PART_INFO_CHANNELS (i : Nat) : Fld := ⟨(PART_INFO i), 24, 10⟩
/-- PART_QUEUE_BASE (R207). -/
def PART_QUEUE_BASE (i : Nat) : Nat := 0x1500008 + i * 0x10000
def PART_QUEUE_BASE_FIRST_QUEUE (i : Nat) : Fld := ⟨(PART_QUEUE_BASE i), 0, 18⟩
def PART_QUEUE_BASE_FIRST_TALLY (i : Nat) : Fld := ⟨(PART_QUEUE_BASE i), 32, 14⟩
def PART_QUEUE_BASE_TALLIES (i : Nat) : Fld := ⟨(PART_QUEUE_BASE i), 48, 15⟩
/-- PART_QUEUE_BLOCKS (R207). -/
def PART_QUEUE_BLOCKS (i : Nat) : Nat := 0x1500010 + i * 0x10000
def PART_QUEUE_BLOCKS_SUB (i : Nat) : Fld := ⟨(PART_QUEUE_BLOCKS i), 0, 16⟩
def PART_QUEUE_BLOCKS_CPL (i : Nat) : Fld := ⟨(PART_QUEUE_BLOCKS i), 16, 16⟩
def PART_QUEUE_BLOCKS_COPY (i : Nat) : Fld := ⟨(PART_QUEUE_BLOCKS i), 32, 16⟩
def PART_QUEUE_BLOCKS_FSEND (i : Nat) : Fld := ⟨(PART_QUEUE_BLOCKS i), 48, 16⟩
/-- PART_QUEUE_EVT (R207). -/
def PART_QUEUE_EVT (i : Nat) : Nat := 0x1500018 + i * 0x10000
def PART_QUEUE_EVT_EVT (i : Nat) : Fld := ⟨(PART_QUEUE_EVT i), 0, 16⟩
/-- PART_CTRL (R207). -/
def PART_CTRL (i : Nat) : Nat := 0x1500040 + i * 0x10000
def PART_CTRL_STOP (i : Nat) : Fld := ⟨(PART_CTRL i), 0, 1⟩
/-- PART_STATUS (R207). -/
def PART_STATUS (i : Nat) : Nat := 0x1500048 + i * 0x10000
def PART_STATUS_QUIESCED (i : Nat) : Fld := ⟨(PART_STATUS i), 0, 1⟩
def PART_STATUS_RUNNING (i : Nat) : Fld := ⟨(PART_STATUS i), 1, 1⟩
def PART_STATUS_FAULT (i : Nat) : Fld := ⟨(PART_STATUS i), 8, 1⟩
def PART_STATUS_BARRIER_STALL (i : Nat) : Fld := ⟨(PART_STATUS i), 9, 1⟩
def PART_STATUS_QUEUE_ERROR (i : Nat) : Fld := ⟨(PART_STATUS i), 10, 1⟩
/-- PART_EVENT_COUNT (R207). -/
def PART_EVENT_COUNT (i : Nat) : Nat := 0x1500050 + i * 0x10000
def PART_EVENT_COUNT_FAULTS (i : Nat) : Fld := ⟨(PART_EVENT_COUNT i), 0, 32⟩
def PART_EVENT_COUNT_STALLS (i : Nat) : Fld := ⟨(PART_EVENT_COUNT i), 32, 32⟩
/-- PART_ERROR_COUNT (R207). -/
def PART_ERROR_COUNT (i : Nat) : Nat := 0x1500058 + i * 0x10000
def PART_ERROR_COUNT_ERRORS (i : Nat) : Fld := ⟨(PART_ERROR_COUNT i), 0, 32⟩
/-- PART_AGE (R207). -/
def PART_AGE (i : Nat) : Nat := 0x1500060 + i * 0x10000
def PART_AGE_TCYCLES (i : Nat) : Fld := ⟨(PART_AGE i), 0, 32⟩
/-- QUE_BASE (R208). -/
def QUE_BASE (i : Nat) : Nat := 0x4000000 + i * 0x80
def QUE_BASE_LOC (i : Nat) : Fld := ⟨(QUE_BASE i), 0, 1⟩
def QUE_BASE_BASE (i : Nat) : Fld := ⟨(QUE_BASE i), 12, 52⟩
/-- QUE_CFG (R208). -/
def QUE_CFG (i : Nat) : Nat := 0x4000008 + i * 0x80
def QUE_CFG_LOG2_SIZE (i : Nat) : Fld := ⟨(QUE_CFG i), 0, 5⟩
def QUE_CFG_PRIORITY (i : Nat) : Fld := ⟨(QUE_CFG i), 5, 2⟩
def QUE_CFG_VECTOR (i : Nat) : Fld := ⟨(QUE_CFG i), 8, 8⟩
def QUE_CFG_ENABLE (i : Nat) : Fld := ⟨(QUE_CFG i), 16, 1⟩
def QUE_CFG_KIND (i : Nat) : Fld := ⟨(QUE_CFG i), 17, 3⟩
/-- QUE_HEAD (R208). -/
def QUE_HEAD (i : Nat) : Nat := 0x4000010 + i * 0x80
def QUE_HEAD_HEAD (i : Nat) : Fld := ⟨(QUE_HEAD i), 0, 16⟩
/-- QUE_TAIL (R208). -/
def QUE_TAIL (i : Nat) : Nat := 0x4000018 + i * 0x80
def QUE_TAIL_TAIL (i : Nat) : Fld := ⟨(QUE_TAIL i), 0, 16⟩
/-- QUE_STATUS (R208). -/
def QUE_STATUS (i : Nat) : Nat := 0x4000020 + i * 0x80
def QUE_STATUS_BLOCKED (i : Nat) : Fld := ⟨(QUE_STATUS i), 0, 1⟩
def QUE_STATUS_HELD (i : Nat) : Fld := ⟨(QUE_STATUS i), 1, 1⟩
def QUE_STATUS_ERROR (i : Nat) : Fld := ⟨(QUE_STATUS i), 8, 1⟩
def QUE_STATUS_ERROR_CODE (i : Nat) : Fld := ⟨(QUE_STATUS i), 16, 8⟩
def QUE_STATUS_ERROR_COUNT (i : Nat) : Fld := ⟨(QUE_STATUS i), 32, 32⟩
/-- QUE_COUNT (R208). -/
def QUE_COUNT (i : Nat) : Nat := 0x4000028 + i * 0x80
def QUE_COUNT_ITEMS (i : Nat) : Fld := ⟨(QUE_COUNT i), 0, 32⟩
/-- TLY_VALUE (R209). -/
def TLY_VALUE (i : Nat) : Nat := 0x1900000 + i * 0x40
def TLY_VALUE_VALUE (i : Nat) : Fld := ⟨(TLY_VALUE i), 0, 32⟩
def TLY_VALUE_FAULTED (i : Nat) : Fld := ⟨(TLY_VALUE i), 32, 1⟩
/-- TLY_ADD (R209). -/
def TLY_ADD (i : Nat) : Nat := 0x1900008 + i * 0x40
def TLY_ADD_ADDEND (i : Nat) : Fld := ⟨(TLY_ADD i), 0, 32⟩
/-- TLY_EVENT (R209). -/
def TLY_EVENT (i : Nat) : Nat := 0x1900010 + i * 0x40
def TLY_EVENT_TARGET (i : Nat) : Fld := ⟨(TLY_EVENT i), 0, 32⟩
def TLY_EVENT_ARM (i : Nat) : Fld := ⟨(TLY_EVENT i), 32, 1⟩
def TLY_EVENT_RING (i : Nat) : Fld := ⟨(TLY_EVENT i), 48, 16⟩
/-- TLY_COUNT (R209). -/
def TLY_COUNT (i : Nat) : Nat := 0x1900018 + i * 0x40
def TLY_COUNT_UPDATES (i : Nat) : Fld := ⟨(TLY_COUNT i), 0, 32⟩
def TLY_COUNT_FAULTS (i : Nat) : Fld := ⟨(TLY_COUNT i), 32, 32⟩
/-- THR_RESIDENT (R250). -/
def THR_RESIDENT (i : Nat) : Nat := 0x2000000 + i * 0x1000
def THR_RESIDENT_CARAVANS (i : Nat) : Fld := ⟨(THR_RESIDENT i), 0, 7⟩
def THR_RESIDENT_GATHERINGS (i : Nat) : Fld := ⟨(THR_RESIDENT i), 8, 7⟩
def THR_RESIDENT_FREE_REG_BYTES (i : Nat) : Fld := ⟨(THR_RESIDENT i), 16, 15⟩
def THR_RESIDENT_FREE_LEAF_PAGES (i : Nat) : Fld := ⟨(THR_RESIDENT i), 32, 8⟩
/-- THR_SLOT_STATE (R250). -/
def THR_SLOT_STATE (i j : Nat) : Nat := 0x2000008 + i * 0x1000 + j * 0x8
def THR_SLOT_STATE_STATE (i j : Nat) : Fld := ⟨(THR_SLOT_STATE i j), 0, 64⟩
/-- THR_WDOG (R250). -/
def THR_WDOG (i : Nat) : Nat := 0x2000040 + i * 0x1000
def THR_WDOG_LIMIT (i : Nat) : Fld := ⟨(THR_WDOG i), 0, 32⟩
def THR_WDOG_ACTION (i : Nat) : Fld := ⟨(THR_WDOG i), 32, 1⟩
/-- THR_STALL_COUNT (R250). -/
def THR_STALL_COUNT (i : Nat) : Nat := 0x2000048 + i * 0x1000
def THR_STALL_COUNT_FIRED (i : Nat) : Fld := ⟨(THR_STALL_COUNT i), 0, 32⟩
/-- THR_WAIT_MAX (R250). -/
def THR_WAIT_MAX (i : Nat) : Nat := 0x2000050 + i * 0x1000
def THR_WAIT_MAX_TCYCLES (i : Nat) : Fld := ⟨(THR_WAIT_MAX i), 0, 32⟩
/-- THR_SWITCH_COUNT (R250). -/
def THR_SWITCH_COUNT (i : Nat) : Nat := 0x2000058 + i * 0x1000
def THR_SWITCH_COUNT_MISSES (i : Nat) : Fld := ⟨(THR_SWITCH_COUNT i), 0, 32⟩
def THR_SWITCH_COUNT_WAITS (i : Nat) : Fld := ⟨(THR_SWITCH_COUNT i), 32, 32⟩
/-- THR_STALL_REC0 (R250). -/
def THR_STALL_REC0 (i j : Nat) : Nat := 0x2000100 + i * 0x1000 + j * 0x20
def THR_STALL_REC0_STAMP (i j : Nat) : Fld := ⟨(THR_STALL_REC0 i j), 0, 64⟩
/-- THR_STALL_REC1 (R250). -/
def THR_STALL_REC1 (i j : Nat) : Nat := 0x2000108 + i * 0x1000 + j * 0x20
def THR_STALL_REC1_VALID (i j : Nat) : Fld := ⟨(THR_STALL_REC1 i j), 0, 1⟩
def THR_STALL_REC1_RESOLVED (i j : Nat) : Fld := ⟨(THR_STALL_REC1 i j), 1, 1⟩
def THR_STALL_REC1_KIND (i j : Nat) : Fld := ⟨(THR_STALL_REC1 i j), 2, 2⟩
def THR_STALL_REC1_SLOT (i j : Nat) : Fld := ⟨(THR_STALL_REC1 i j), 4, 6⟩
def THR_STALL_REC1_BAR_ID (i j : Nat) : Fld := ⟨(THR_STALL_REC1 i j), 10, 4⟩
def THR_STALL_REC1_PC (i j : Nat) : Fld := ⟨(THR_STALL_REC1 i j), 16, 32⟩
def THR_STALL_REC1_HOLDER_SLOT (i j : Nat) : Fld := ⟨(THR_STALL_REC1 i j), 48, 6⟩
def THR_STALL_REC1_HOLDER_STATE (i j : Nat) : Fld := ⟨(THR_STALL_REC1 i j), 54, 4⟩
/-- THR_STALL_REC2 (R250). -/
def THR_STALL_REC2 (i j : Nat) : Nat := 0x2000110 + i * 0x1000 + j * 0x20
def THR_STALL_REC2_MASK (i j : Nat) : Fld := ⟨(THR_STALL_REC2 i j), 0, 32⟩
def THR_STALL_REC2_ARRIVED (i j : Nat) : Fld := ⟨(THR_STALL_REC2 i j), 32, 32⟩
/-- THR_STALL_REC3 (R250). -/
def THR_STALL_REC3 (i j : Nat) : Nat := 0x2000118 + i * 0x1000 + j * 0x20
def THR_STALL_REC3_HOLDERS (i j : Nat) : Fld := ⟨(THR_STALL_REC3 i j), 0, 32⟩
def THR_STALL_REC3_HOLDER_PC (i j : Nat) : Fld := ⟨(THR_STALL_REC3 i j), 32, 32⟩
/-- THR_ACC_STATUS (R325). -/
def THR_ACC_STATUS (i : Nat) : Nat := 0x2000200 + i * 0x1000
def THR_ACC_STATUS_ACTIVE (i : Nat) : Fld := ⟨(THR_ACC_STATUS i), 0, 16⟩
def THR_ACC_STATUS_DRAINING (i : Nat) : Fld := ⟨(THR_ACC_STATUS i), 16, 16⟩
def THR_ACC_STATUS_COPIES (i : Nat) : Fld := ⟨(THR_ACC_STATUS i), 32, 7⟩
/-- THR_ACC_DROP (R325). -/
def THR_ACC_DROP (i : Nat) : Nat := 0x2000208 + i * 0x1000
def THR_ACC_DROP_PREFETCH (i : Nat) : Fld := ⟨(THR_ACC_DROP i), 0, 32⟩
def THR_ACC_DROP_REFETCH (i : Nat) : Fld := ⟨(THR_ACC_DROP i), 32, 32⟩
/-- THR_ACC_COUNT (R325). -/
def THR_ACC_COUNT (i : Nat) : Nat := 0x2000210 + i * 0x1000
def THR_ACC_COUNT_COPIES (i : Nat) : Fld := ⟨(THR_ACC_COUNT i), 0, 32⟩
def THR_ACC_COUNT_ROWS (i : Nat) : Fld := ⟨(THR_ACC_COUNT i), 32, 32⟩
/-- THR_LEAF_COUNT (R325). -/
def THR_LEAF_COUNT (i : Nat) : Nat := 0x2000218 + i * 0x1000
def THR_LEAF_COUNT_CONFLICT (i : Nat) : Fld := ⟨(THR_LEAF_COUNT i), 0, 32⟩
def THR_LEAF_COUNT_CROSS_IN (i : Nat) : Fld := ⟨(THR_LEAF_COUNT i), 32, 32⟩
/-- THR_ARRIVAL (R325). -/
def THR_ARRIVAL (i j : Nat) : Nat := 0x2000300 + i * 0x1000 + j * 0x8
def THR_ARRIVAL_VALUE (i j : Nat) : Fld := ⟨(THR_ARRIVAL i j), 0, 32⟩
def THR_ARRIVAL_BOUND (i j : Nat) : Fld := ⟨(THR_ARRIVAL i j), 32, 1⟩
/-- THR_ACC_CTX (R325). -/
def THR_ACC_CTX (i j : Nat) : Nat := 0x2000400 + i * 0x1000 + j * 0x8
def THR_ACC_CTX_NEXT_ROW (i j : Nat) : Fld := ⟨(THR_ACC_CTX i j), 0, 16⟩
def THR_ACC_CTX_RELEASED (i j : Nat) : Fld := ⟨(THR_ACC_CTX i j), 16, 16⟩
def THR_ACC_CTX_STATE (i j : Nat) : Fld := ⟨(THR_ACC_CTX i j), 32, 2⟩
def THR_ACC_CTX_SLOT (i j : Nat) : Fld := ⟨(THR_ACC_CTX i j), 34, 6⟩
def THR_ACC_CTX_DIR (i j : Nat) : Fld := ⟨(THR_ACC_CTX i j), 40, 1⟩
/-- MTX_ARRAY_STATUS (R370). -/
def MTX_ARRAY_STATUS (i : Nat) : Nat := 0x2800000 + i * 0x1000
def MTX_ARRAY_STATUS_NARROWED (i : Nat) : Fld := ⟨(MTX_ARRAY_STATUS i), 0, 4⟩
def MTX_ARRAY_STATUS_FENCED (i : Nat) : Fld := ⟨(MTX_ARRAY_STATUS i), 4, 4⟩
def MTX_ARRAY_STATUS_FILL (i : Nat) : Fld := ⟨(MTX_ARRAY_STATUS i), 8, 1⟩
def MTX_ARRAY_STATUS_VERSO (i : Nat) : Fld := ⟨(MTX_ARRAY_STATUS i), 9, 1⟩
def MTX_ARRAY_STATUS_FACTOR (i : Nat) : Fld := ⟨(MTX_ARRAY_STATUS i), 10, 2⟩
def MTX_ARRAY_STATUS_BADCOL_0 (i : Nat) : Fld := ⟨(MTX_ARRAY_STATUS i), 16, 4⟩
def MTX_ARRAY_STATUS_BADCOL_1 (i : Nat) : Fld := ⟨(MTX_ARRAY_STATUS i), 20, 4⟩
def MTX_ARRAY_STATUS_BADCOL_2 (i : Nat) : Fld := ⟨(MTX_ARRAY_STATUS i), 24, 4⟩
def MTX_ARRAY_STATUS_BADCOL_3 (i : Nat) : Fld := ⟨(MTX_ARRAY_STATUS i), 28, 4⟩
/-- MTX_QUEUE (R370). -/
def MTX_QUEUE (i : Nat) : Nat := 0x2800008 + i * 0x1000
def MTX_QUEUE_DEPTH (i : Nat) : Fld := ⟨(MTX_QUEUE i), 0, 4⟩
def MTX_QUEUE_HEAD_WAIT (i : Nat) : Fld := ⟨(MTX_QUEUE i), 4, 3⟩
def MTX_QUEUE_HEAD_TILE (i : Nat) : Fld := ⟨(MTX_QUEUE i), 8, 8⟩
/-- MTX_PASS_COUNT (R370). -/
def MTX_PASS_COUNT (i : Nat) : Nat := 0x2800010 + i * 0x1000
def MTX_PASS_COUNT_PASSES (i : Nat) : Fld := ⟨(MTX_PASS_COUNT i), 0, 32⟩
def MTX_PASS_COUNT_SLOW_PASSES (i : Nat) : Fld := ⟨(MTX_PASS_COUNT i), 32, 32⟩
/-- MTX_WAIT_COUNT (R370). -/
def MTX_WAIT_COUNT (i : Nat) : Nat := 0x2800018 + i * 0x1000
def MTX_WAIT_COUNT_ACC_MCYCLES (i : Nat) : Fld := ⟨(MTX_WAIT_COUNT i), 0, 32⟩
def MTX_WAIT_COUNT_WSET_MCYCLES (i : Nat) : Fld := ⟨(MTX_WAIT_COUNT i), 32, 32⟩
/-- MTX_STRETCH_COUNT (R370). -/
def MTX_STRETCH_COUNT (i : Nat) : Nat := 0x2800020 + i * 0x1000
def MTX_STRETCH_COUNT_TCYCLES (i : Nat) : Fld := ⟨(MTX_STRETCH_COUNT i), 0, 32⟩
def MTX_STRETCH_COUNT_LOADS (i : Nat) : Fld := ⟨(MTX_STRETCH_COUNT i), 32, 32⟩
/-- MTX_ACC_FILE (R370). -/
def MTX_ACC_FILE (i : Nat) : Nat := 0x2800028 + i * 0x1000
def MTX_ACC_FILE_TILES (i : Nat) : Fld := ⟨(MTX_ACC_FILE i), 0, 9⟩
/-- VEC_STATUS (R413). -/
def VEC_STATUS (i : Nat) : Nat := 0x3000000 + i * 0x1000
def VEC_STATUS_DEPTH (i : Nat) : Fld := ⟨(VEC_STATUS i), 0, 3⟩
def VEC_STATUS_HEAD_WAIT (i : Nat) : Fld := ⟨(VEC_STATUS i), 4, 3⟩
/-- VEC_INSTR_COUNT (R413). -/
def VEC_INSTR_COUNT (i : Nat) : Nat := 0x3000008 + i * 0x1000
def VEC_INSTR_COUNT_PIPELINE (i : Nat) : Fld := ⟨(VEC_INSTR_COUNT i), 0, 32⟩
def VEC_INSTR_COUNT_LEAF (i : Nat) : Fld := ⟨(VEC_INSTR_COUNT i), 32, 32⟩
/-- VEC_BUSY_COUNT (R413). -/
def VEC_BUSY_COUNT (i : Nat) : Nat := 0x3000010 + i * 0x1000
def VEC_BUSY_COUNT_PIPELINE_TCYCLES (i : Nat) : Fld := ⟨(VEC_BUSY_COUNT i), 0, 32⟩
def VEC_BUSY_COUNT_LEAF_TCYCLES (i : Nat) : Fld := ⟨(VEC_BUSY_COUNT i), 32, 32⟩
/-- VEC_WAIT_COUNT (R413). -/
def VEC_WAIT_COUNT (i : Nat) : Nat := 0x3000018 + i * 0x1000
def VEC_WAIT_COUNT_ORDER_TCYCLES (i : Nat) : Fld := ⟨(VEC_WAIT_COUNT i), 0, 32⟩
def VEC_WAIT_COUNT_BANK_TCYCLES (i : Nat) : Fld := ⟨(VEC_WAIT_COUNT i), 32, 32⟩
/-- TRN_CFG (R439). -/
def TRN_CFG (i : Nat) : Nat := 0xF01000 + i * 0x80
def TRN_CFG_ACCUM_COUNT (i : Nat) : Fld := ⟨(TRN_CFG i), 0, 13⟩
def TRN_CFG_LS_MODE (i : Nat) : Fld := ⟨(TRN_CFG i), 16, 1⟩
def TRN_CFG_PREFETCH_LAYERS (i : Nat) : Fld := ⟨(TRN_CFG i), 20, 4⟩
def TRN_CFG_ACTIVE (i : Nat) : Fld := ⟨(TRN_CFG i), 24, 1⟩
def TRN_CFG_GROWTH_INTERVAL (i : Nat) : Fld := ⟨(TRN_CFG i), 32, 32⟩
/-- TRN_LS (R439). -/
def TRN_LS (i : Nat) : Nat := 0xF01008 + i * 0x80
def TRN_LS_EXP (i : Nat) : Fld := ⟨(TRN_LS i), 0, 6⟩
def TRN_LS_CLEAN (i : Nat) : Fld := ⟨(TRN_LS i), 32, 32⟩
/-- TRN_STEP (R439). -/
def TRN_STEP (i : Nat) : Nat := 0xF01010 + i * 0x80
def TRN_STEP_STEP (i : Nat) : Fld := ⟨(TRN_STEP i), 0, 32⟩
def TRN_STEP_ATTEMPT (i : Nat) : Fld := ⟨(TRN_STEP i), 32, 16⟩
/-- TRN_SHARD_BASE (R439). -/
def TRN_SHARD_BASE (i : Nat) : Nat := 0xF01018 + i * 0x80
def TRN_SHARD_BASE_BASE (i : Nat) : Fld := ⟨(TRN_SHARD_BASE i), 12, 52⟩
/-- TRN_SHARD_SLOTS (R439). -/
def TRN_SHARD_SLOTS (i : Nat) : Nat := 0xF01020 + i * 0x80
def TRN_SHARD_SLOTS_SLOTS (i : Nat) : Fld := ⟨(TRN_SHARD_SLOTS i), 0, 32⟩
/-- TRN_RECORD (R439). -/
def TRN_RECORD (i : Nat) : Nat := 0xF01028 + i * 0x80
def TRN_RECORD_EN (i : Nat) : Fld := ⟨(TRN_RECORD i), 0, 1⟩
def TRN_RECORD_ADDR (i : Nat) : Fld := ⟨(TRN_RECORD i), 6, 58⟩
/-- TRN_TALLY (R439). -/
def TRN_TALLY (i : Nat) : Nat := 0xF01030 + i * 0x80
def TRN_TALLY_DECISION_TALLY (i : Nat) : Fld := ⟨(TRN_TALLY i), 0, 16⟩
/-- TRN_GATHER (R439). -/
def TRN_GATHER (i : Nat) : Nat := 0xF01038 + i * 0x80
def TRN_GATHER_REL_FWD (i : Nat) : Fld := ⟨(TRN_GATHER i), 0, 16⟩
def TRN_GATHER_REL_BWD (i : Nat) : Fld := ⟨(TRN_GATHER i), 16, 16⟩
def TRN_GATHER_HELD (i : Nat) : Fld := ⟨(TRN_GATHER i), 32, 7⟩
/-- TRN_STATUS (R439). -/
def TRN_STATUS (i : Nat) : Nat := 0xF01040 + i * 0x80
def TRN_STATUS_LS_FLOOR (i : Nat) : Fld := ⟨(TRN_STATUS i), 0, 1⟩
def TRN_STATUS_NONFINITE (i : Nat) : Fld := ⟨(TRN_STATUS i), 1, 1⟩
def TRN_STATUS_RECORD_FAULT (i : Nat) : Fld := ⟨(TRN_STATUS i), 2, 1⟩
/-- TRN_COUNT_A (R439). -/
def TRN_COUNT_A (i : Nat) : Nat := 0xF01048 + i * 0x80
def TRN_COUNT_A_COMMITS (i : Nat) : Fld := ⟨(TRN_COUNT_A i), 0, 32⟩
def TRN_COUNT_A_NONFINITE (i : Nat) : Fld := ⟨(TRN_COUNT_A i), 32, 32⟩
/-- TRN_COUNT_B (R439). -/
def TRN_COUNT_B (i : Nat) : Nat := 0xF01050 + i * 0x80
def TRN_COUNT_B_LATE_REPEATS (i : Nat) : Fld := ⟨(TRN_COUNT_B i), 0, 32⟩
def TRN_COUNT_B_FLOORS (i : Nat) : Fld := ⟨(TRN_COUNT_B i), 32, 32⟩
/-- TRN_COUNT_C (R439). -/
def TRN_COUNT_C (i : Nat) : Nat := 0xF01058 + i * 0x80
def TRN_COUNT_C_STALE (i : Nat) : Fld := ⟨(TRN_COUNT_C i), 0, 32⟩
def TRN_COUNT_C_RECORD_FAULTS (i : Nat) : Fld := ⟨(TRN_COUNT_C i), 32, 32⟩
/-- TRN_GATHER_COUNT (R439). -/
def TRN_GATHER_COUNT (i : Nat) : Nat := 0xF01060 + i * 0x80
def TRN_GATHER_COUNT_TILES (i : Nat) : Fld := ⟨(TRN_GATHER_COUNT i), 0, 32⟩
def TRN_GATHER_COUNT_HELD_TCYCLES (i : Nat) : Fld := ⟨(TRN_GATHER_COUNT i), 32, 32⟩
/-- TRN_PROOF_SLOT (R464). -/
def TRN_PROOF_SLOT (i j : Nat) : Nat := 0xF04000 + i * 0x40 + j * 0x8
def TRN_PROOF_SLOT_EPOCH (i j : Nat) : Fld := ⟨(TRN_PROOF_SLOT i j), 0, 32⟩
def TRN_PROOF_SLOT_VALID (i j : Nat) : Fld := ⟨(TRN_PROOF_SLOT i j), 32, 1⟩
/-- TRN_PROOF_JOB (R464). -/
def TRN_PROOF_JOB (i : Nat) : Nat := 0xF04020 + i * 0x40
def TRN_PROOF_JOB_LATEST (i : Nat) : Fld := ⟨(TRN_PROOF_JOB i), 0, 31⟩
def TRN_PROOF_JOB_OUTCOMES (i : Nat) : Fld := ⟨(TRN_PROOF_JOB i), 32, 16⟩
/-- TRN_PROOF_COUNT (R464). -/
def TRN_PROOF_COUNT (i : Nat) : Nat := 0xF04028 + i * 0x40
def TRN_PROOF_COUNT_COMMITS (i : Nat) : Fld := ⟨(TRN_PROOF_COUNT i), 0, 32⟩
def TRN_PROOF_COUNT_DISCARDS (i : Nat) : Fld := ⟨(TRN_PROOF_COUNT i), 32, 32⟩
/-- TRN_PROOF_DROP (R464). -/
def TRN_PROOF_DROP (i : Nat) : Nat := 0xF04030 + i * 0x40
def TRN_PROOF_DROP_STALE (i : Nat) : Fld := ⟨(TRN_PROOF_DROP i), 0, 32⟩
def TRN_PROOF_DROP_NOOP (i : Nat) : Fld := ⟨(TRN_PROOF_DROP i), 32, 32⟩
/-- TRN_PROOF_VERSION (R464). -/
def TRN_PROOF_VERSION (i : Nat) : Nat := 0xF04038 + i * 0x40
def TRN_PROOF_VERSION_GRANULES (i : Nat) : Fld := ⟨(TRN_PROOF_VERSION i), 0, 32⟩
def TRN_PROOF_VERSION_FULL (i : Nat) : Fld := ⟨(TRN_PROOF_VERSION i), 32, 32⟩
/-- CFG_POOLS (R492). -/
def CFG_POOLS : Nat := 0x500
def CFG_POOLS_REDUCTION : Fld := ⟨CFG_POOLS, 0, 32⟩
def CFG_POOLS_VERSION : Fld := ⟨CFG_POOLS, 32, 32⟩
/-- CFG_VERSION_CTRL (R492). -/
def CFG_VERSION_CTRL : Nat := 0x508
def CFG_VERSION_CTRL_SNAP_LIMIT : Fld := ⟨CFG_VERSION_CTRL, 0, 5⟩
def CFG_VERSION_CTRL_ABANDONS : Fld := ⟨CFG_VERSION_CTRL, 32, 32⟩
/-- PART_MEMORY (R493). -/
def PART_MEMORY (i : Nat) : Nat := 0x1500080 + i * 0x10000
def PART_MEMORY_BYTES (i : Nat) : Fld := ⟨(PART_MEMORY i), 0, 48⟩
/-- DUN_STATUS (R494). -/
def DUN_STATUS (i : Nat) : Nat := 0x1100000 + i * 0x20000
def DUN_STATUS_FENCED (i : Nat) : Fld := ⟨(DUN_STATUS i), 0, 16⟩
def DUN_STATUS_HOT (i : Nat) : Fld := ⟨(DUN_STATUS i), 16, 1⟩
def DUN_STATUS_UE (i : Nat) : Fld := ⟨(DUN_STATUS i), 17, 1⟩
def DUN_STATUS_ENCRYPTED (i : Nat) : Fld := ⟨(DUN_STATUS i), 32, 16⟩
/-- DUN_ECC_LAST (R494). -/
def DUN_ECC_LAST (i : Nat) : Nat := 0x1100008 + i * 0x20000
def DUN_ECC_LAST_CHANNEL (i : Nat) : Fld := ⟨(DUN_ECC_LAST i), 0, 4⟩
def DUN_ECC_LAST_VALID (i : Nat) : Fld := ⟨(DUN_ECC_LAST i), 4, 1⟩
def DUN_ECC_LAST_LINE (i : Nat) : Fld := ⟨(DUN_ECC_LAST i), 5, 25⟩
def DUN_ECC_LAST_UE_TOTAL (i : Nat) : Fld := ⟨(DUN_ECC_LAST i), 32, 32⟩
/-- DUN_DIR (R494). -/
def DUN_DIR (i : Nat) : Nat := 0x1100010 + i * 0x20000
def DUN_DIR_USED (i : Nat) : Fld := ⟨(DUN_DIR i), 0, 21⟩
def DUN_DIR_RECALLS (i : Nat) : Fld := ⟨(DUN_DIR i), 32, 32⟩
/-- DUN_SCRUB (R494). -/
def DUN_SCRUB (i : Nat) : Nat := 0x1100018 + i * 0x20000
def DUN_SCRUB_HOURS (i : Nat) : Fld := ⟨(DUN_SCRUB i), 0, 8⟩
def DUN_SCRUB_PASSES (i : Nat) : Fld := ⟨(DUN_SCRUB i), 32, 32⟩
/-- DUN_ECC_COUNT (R494). -/
def DUN_ECC_COUNT (i j : Nat) : Nat := 0x1100100 + i * 0x20000 + j * 0x8
def DUN_ECC_COUNT_CORRECTED (i j : Nat) : Fld := ⟨(DUN_ECC_COUNT i j), 0, 32⟩
def DUN_ECC_COUNT_POISONED (i j : Nat) : Fld := ⟨(DUN_ECC_COUNT i j), 32, 32⟩
/-- DUN_VERSION (R494). -/
def DUN_VERSION (i j : Nat) : Nat := 0x1100200 + i * 0x20000 + j * 0x8
def DUN_VERSION_PROOF (i j : Nat) : Fld := ⟨(DUN_VERSION i j), 0, 20⟩
def DUN_VERSION_FROZEN (i j : Nat) : Fld := ⟨(DUN_VERSION i j), 20, 20⟩
def DUN_VERSION_SHARE (i j : Nat) : Fld := ⟨(DUN_VERSION i j), 40, 20⟩
/-- DUN_TRAFFIC (R494). -/
def DUN_TRAFFIC (i j : Nat) : Nat := 0x1100300 + i * 0x20000 + j * 0x8
def DUN_TRAFFIC_READ_LINES (i j : Nat) : Fld := ⟨(DUN_TRAFFIC i j), 0, 32⟩
def DUN_TRAFFIC_WRITE_LINES (i j : Nat) : Fld := ⟨(DUN_TRAFFIC i j), 32, 32⟩
/-- RED_ACK_TIMEOUT (R523). -/
def RED_ACK_TIMEOUT : Nat := 0x1000000
def RED_ACK_TIMEOUT_TCYCLES : Fld := ⟨RED_ACK_TIMEOUT, 0, 32⟩
/-- RED_MGR_STATUS (R523). -/
def RED_MGR_STATUS : Nat := 0x1000008
def RED_MGR_STATUS_ARMED : Fld := ⟨RED_MGR_STATUS, 0, 1⟩
def RED_MGR_STATUS_CLOSED : Fld := ⟨RED_MGR_STATUS, 1, 1⟩
def RED_MGR_STATUS_RANKS_DONE : Fld := ⟨RED_MGR_STATUS, 16, 16⟩
def RED_MGR_STATUS_OWNERS_DONE : Fld := ⟨RED_MGR_STATUS, 32, 16⟩
/-- RED_LEAF_BASE (R524). -/
def RED_LEAF_BASE (i : Nat) : Nat := 0x1001000 + i * 0x80
def RED_LEAF_BASE_BASE (i : Nat) : Fld := ⟨(RED_LEAF_BASE i), 12, 52⟩
/-- RED_ROOT_BASE (R524). -/
def RED_ROOT_BASE (i : Nat) : Nat := 0x1001008 + i * 0x80
def RED_ROOT_BASE_BASE (i : Nat) : Fld := ⟨(RED_ROOT_BASE i), 12, 52⟩
/-- RED_GATE (R524). -/
def RED_GATE (i : Nat) : Nat := 0x1001010 + i * 0x80
def RED_GATE_TALLY (i : Nat) : Fld := ⟨(RED_GATE i), 0, 16⟩
/-- RED_TREE (R524). -/
def RED_TREE (i : Nat) : Nat := 0x1001018 + i * 0x80
def RED_TREE_N (i : Nat) : Fld := ⟨(RED_TREE i), 0, 16⟩
def RED_TREE_LOG2_P (i : Nat) : Fld := ⟨(RED_TREE i), 16, 5⟩
def RED_TREE_DROPPED (i : Nat) : Fld := ⟨(RED_TREE i), 32, 16⟩
def RED_TREE_COVERED (i : Nat) : Fld := ⟨(RED_TREE i), 48, 16⟩
/-- RED_STATUS (R524). -/
def RED_STATUS (i : Nat) : Nat := 0x1001020 + i * 0x80
def RED_STATUS_CHECK_FAIL (i : Nat) : Fld := ⟨(RED_STATUS i), 0, 1⟩
def RED_STATUS_NONFINITE_ROOT (i : Nat) : Fld := ⟨(RED_STATUS i), 1, 1⟩
def RED_STATUS_POOL_WAIT (i : Nat) : Fld := ⟨(RED_STATUS i), 2, 1⟩
def RED_STATUS_AREA_FAULT (i : Nat) : Fld := ⟨(RED_STATUS i), 3, 1⟩
/-- RED_COUNT_A (R524). -/
def RED_COUNT_A (i : Nat) : Nat := 0x1001028 + i * 0x80
def RED_COUNT_A_ACCEPTED (i : Nat) : Fld := ⟨(RED_COUNT_A i), 0, 32⟩
def RED_COUNT_A_DUPLICATE (i : Nat) : Fld := ⟨(RED_COUNT_A i), 32, 32⟩
/-- RED_COUNT_B (R524). -/
def RED_COUNT_B (i : Nat) : Nat := 0x1001030 + i * 0x80
def RED_COUNT_B_STALE (i : Nat) : Fld := ⟨(RED_COUNT_B i), 0, 32⟩
def RED_COUNT_B_EARLY (i : Nat) : Fld := ⟨(RED_COUNT_B i), 32, 32⟩
/-- RED_COUNT_C (R524). -/
def RED_COUNT_C (i : Nat) : Nat := 0x1001038 + i * 0x80
def RED_COUNT_C_ROOTS (i : Nat) : Fld := ⟨(RED_COUNT_C i), 0, 32⟩
def RED_COUNT_C_NONFINITE (i : Nat) : Fld := ⟨(RED_COUNT_C i), 32, 32⟩
/-- RED_COUNT_D (R524). -/
def RED_COUNT_D (i : Nat) : Nat := 0x1001040 + i * 0x80
def RED_COUNT_D_REFUSED (i : Nat) : Fld := ⟨(RED_COUNT_D i), 0, 32⟩
def RED_COUNT_D_CHECK_FAILS (i : Nat) : Fld := ⟨(RED_COUNT_D i), 32, 32⟩
/-- RED_SEND (R524). -/
def RED_SEND (i : Nat) : Nat := 0x1001048 + i * 0x80
def RED_SEND_OUTSTANDING (i : Nat) : Fld := ⟨(RED_SEND i), 0, 17⟩
def RED_SEND_RESENDS (i : Nat) : Fld := ⟨(RED_SEND i), 32, 32⟩
/-- RED_COUNT_E (R524). -/
def RED_COUNT_E (i : Nat) : Nat := 0x1001050 + i * 0x80
def RED_COUNT_E_AREA_FAULTS (i : Nat) : Fld := ⟨(RED_COUNT_E i), 0, 32⟩
/-- FAB_STATUS (R568). -/
def FAB_STATUS : Nat := 0xD00000
def FAB_STATUS_BOARD_MGR : Fld := ⟨FAB_STATUS, 0, 1⟩
def FAB_STATUS_JOB_MGR : Fld := ⟨FAB_STATUS, 1, 1⟩
def FAB_STATUS_JOINED : Fld := ⟨FAB_STATUS, 2, 1⟩
def FAB_STATUS_ALIGNED : Fld := ⟨FAB_STATUS, 3, 1⟩
def FAB_STATUS_PORTS_UP : Fld := ⟨FAB_STATUS, 4, 6⟩
/-- FAB_STAMP_OFFSET (R568). -/
def FAB_STAMP_OFFSET : Nat := 0xD00008
def FAB_STAMP_OFFSET_TCYCLES : Fld := ⟨FAB_STAMP_OFFSET, 0, 64⟩
/-- FAB_STAMP_ALIGNED (R568). -/
def FAB_STAMP_ALIGNED : Nat := 0xD00010
def FAB_STAMP_ALIGNED_TCYCLES : Fld := ⟨FAB_STAMP_ALIGNED, 0, 64⟩
/-- FAB_SYNC (R568). -/
def FAB_SYNC : Nat := 0xD00018
def FAB_SYNC_PERIOD : Fld := ⟨FAB_SYNC, 0, 32⟩
def FAB_SYNC_LAST_RTT : Fld := ⟨FAB_SYNC, 32, 16⟩
/-- FAB_INCARNATION (R568). -/
def FAB_INCARNATION : Nat := 0xD00020
def FAB_INCARNATION_VALUE : Fld := ⟨FAB_INCARNATION, 0, 16⟩
/-- FAB_E2E (R568). -/
def FAB_E2E : Nat := 0xD00028
def FAB_E2E_TIMEOUT : Fld := ⟨FAB_E2E, 0, 32⟩
def FAB_E2E_LIMIT : Fld := ⟨FAB_E2E, 32, 8⟩
/-- FAB_CFG (R568). -/
def FAB_CFG : Nat := 0xD00030
def FAB_CFG_HOP_LIMIT : Fld := ⟨FAB_CFG, 0, 4⟩
/-- FAB_MGR (R568). -/
def FAB_MGR : Nat := 0xD00038
def FAB_MGR_JOINED : Fld := ⟨FAB_MGR, 0, 16⟩
def FAB_MGR_ALIGNED : Fld := ⟨FAB_MGR, 16, 16⟩
def FAB_MGR_REFUSED : Fld := ⟨FAB_MGR, 32, 32⟩
/-- FAB_COUNT_A (R568). -/
def FAB_COUNT_A : Nat := 0xD00040
def FAB_COUNT_A_FORWARDED : Fld := ⟨FAB_COUNT_A, 0, 32⟩
def FAB_COUNT_A_HOP_DROPS : Fld := ⟨FAB_COUNT_A, 32, 32⟩
/-- FAB_COUNT_B (R568). -/
def FAB_COUNT_B : Nat := 0xD00048
def FAB_COUNT_B_DUPLICATES : Fld := ⟨FAB_COUNT_B, 0, 32⟩
def FAB_COUNT_B_RESENDS : Fld := ⟨FAB_COUNT_B, 32, 32⟩
/-- FAB_COUNT_C (R568). -/
def FAB_COUNT_C : Nat := 0xD00050
def FAB_COUNT_C_HOLD_DROPS : Fld := ⟨FAB_COUNT_C, 0, 32⟩
def FAB_COUNT_C_OLD_INCARNATION : Fld := ⟨FAB_COUNT_C, 32, 32⟩
/-- FAB_LASER (R568). -/
def FAB_LASER : Nat := 0xD00058
def FAB_LASER_PRESENT : Fld := ⟨FAB_LASER, 0, 4⟩
/-- FAB_PORT_STATUS (R569). -/
def FAB_PORT_STATUS (i : Nat) : Nat := 0xE00000 + i * 0x8000
def FAB_PORT_STATUS_STATE (i : Nat) : Fld := ⟨(FAB_PORT_STATUS i), 0, 3⟩
def FAB_PORT_STATUS_WIDTH (i : Nat) : Fld := ⟨(FAB_PORT_STATUS i), 3, 2⟩
def FAB_PORT_STATUS_FENCED (i : Nat) : Fld := ⟨(FAB_PORT_STATUS i), 5, 1⟩
def FAB_PORT_STATUS_LOSS (i : Nat) : Fld := ⟨(FAB_PORT_STATUS i), 6, 1⟩
def FAB_PORT_STATUS_PEER_SLOT (i : Nat) : Fld := ⟨(FAB_PORT_STATUS i), 8, 3⟩
def FAB_PORT_STATUS_PEER_PORT (i : Nat) : Fld := ⟨(FAB_PORT_STATUS i), 11, 5⟩
def FAB_PORT_STATUS_PEER_MGR (i : Nat) : Fld := ⟨(FAB_PORT_STATUS i), 16, 1⟩
def FAB_PORT_STATUS_PEER_JOINED (i : Nat) : Fld := ⟨(FAB_PORT_STATUS i), 17, 1⟩
def FAB_PORT_STATUS_PEER_RANK (i : Nat) : Fld := ⟨(FAB_PORT_STATUS i), 32, 16⟩
/-- FAB_PORT_CFG (R569). -/
def FAB_PORT_CFG (i : Nat) : Nat := 0xE00008 + i * 0x8000
def FAB_PORT_CFG_DATELINE (i : Nat) : Fld := ⟨(FAB_PORT_CFG i), 0, 1⟩
def FAB_PORT_CFG_W_TC1 (i : Nat) : Fld := ⟨(FAB_PORT_CFG i), 8, 8⟩
def FAB_PORT_CFG_W_TC2 (i : Nat) : Fld := ⟨(FAB_PORT_CFG i), 16, 8⟩
def FAB_PORT_CFG_W_TC3 (i : Nat) : Fld := ⟨(FAB_PORT_CFG i), 24, 8⟩
/-- FAB_PORT_RTT (R569). -/
def FAB_PORT_RTT (i : Nat) : Nat := 0xE00010 + i * 0x8000
def FAB_PORT_RTT_FCYCLES (i : Nat) : Fld := ⟨(FAB_PORT_RTT i), 0, 16⟩
/-- FAB_PORT_LINK (R569). -/
def FAB_PORT_LINK (i : Nat) : Nat := 0xE00018 + i * 0x8000
def FAB_PORT_LINK_FEC_CORRECTED (i : Nat) : Fld := ⟨(FAB_PORT_LINK i), 0, 32⟩
def FAB_PORT_LINK_REPLAYS (i : Nat) : Fld := ⟨(FAB_PORT_LINK i), 32, 16⟩
/-- FAB_PORT_TC0 (R569). -/
def FAB_PORT_TC0 (i : Nat) : Nat := 0xE00020 + i * 0x8000
def FAB_PORT_TC0_LOAD (i : Nat) : Fld := ⟨(FAB_PORT_TC0 i), 0, 10⟩
def FAB_PORT_TC0_OVER (i : Nat) : Fld := ⟨(FAB_PORT_TC0 i), 32, 32⟩
/-- FAB_PORT_TRAFFIC (R569). -/
def FAB_PORT_TRAFFIC (i : Nat) : Nat := 0xE00028 + i * 0x8000
def FAB_PORT_TRAFFIC_TX_FLITS (i : Nat) : Fld := ⟨(FAB_PORT_TRAFFIC i), 0, 32⟩
def FAB_PORT_TRAFFIC_RX_FLITS (i : Nat) : Fld := ⟨(FAB_PORT_TRAFFIC i), 32, 32⟩
/-- FAB_PORT_LOSS (R569). -/
def FAB_PORT_LOSS (i : Nat) : Nat := 0xE00030 + i * 0x8000
def FAB_PORT_LOSS_LOSSES (i : Nat) : Fld := ⟨(FAB_PORT_LOSS i), 0, 32⟩
/-- RES_STATUS (R607). -/
def RES_STATUS : Nat := 0x300000
def RES_STATUS_RECORD : Fld := ⟨RES_STATUS, 0, 1⟩
def RES_STATUS_RANK_FATAL : Fld := ⟨RES_STATUS, 1, 1⟩
def RES_STATUS_MIRROR_SUSPENDED : Fld := ⟨RES_STATUS, 2, 1⟩
def RES_STATUS_OUTBOX_FULL : Fld := ⟨RES_STATUS, 3, 1⟩
/-- RES_COUNT_A (R607). -/
def RES_COUNT_A : Nat := 0x300008
def RES_COUNT_A_RECORDS : Fld := ⟨RES_COUNT_A, 0, 32⟩
def RES_COUNT_A_RANK_FATAL : Fld := ⟨RES_COUNT_A, 32, 32⟩
/-- RES_COUNT_B (R607). -/
def RES_COUNT_B : Nat := 0x300010
def RES_COUNT_B_FENCES : Fld := ⟨RES_COUNT_B, 0, 32⟩
def RES_COUNT_B_REFETCHES : Fld := ⟨RES_COUNT_B, 32, 32⟩
/-- RES_COUNT_C (R607). -/
def RES_COUNT_C : Nat := 0x300018
def RES_COUNT_C_LOST : Fld := ⟨RES_COUNT_C, 0, 32⟩
def RES_COUNT_C_SUPPRESSED : Fld := ⟨RES_COUNT_C, 32, 32⟩
/-- RES_JOB (R607). -/
def RES_JOB : Nat := 0x300020
def RES_JOB_DROPPED : Fld := ⟨RES_JOB, 0, 16⟩
def RES_JOB_FILLING : Fld := ⟨RES_JOB, 16, 16⟩
def RES_JOB_FAILURES : Fld := ⟨RES_JOB, 32, 32⟩
/-- RES_SILENT (R607). -/
def RES_SILENT : Nat := 0x300028
def RES_SILENT_LIMIT : Fld := ⟨RES_SILENT, 0, 8⟩
/-- RES_MIRROR_LOCAL (R607). -/
def RES_MIRROR_LOCAL (i : Nat) : Nat := 0x300100 + i * 0x20
def RES_MIRROR_LOCAL_EN (i : Nat) : Fld := ⟨(RES_MIRROR_LOCAL i), 0, 1⟩
def RES_MIRROR_LOCAL_LOCAL (i : Nat) : Fld := ⟨(RES_MIRROR_LOCAL i), 12, 52⟩
/-- RES_MIRROR_PAGES (R607). -/
def RES_MIRROR_PAGES (i : Nat) : Nat := 0x300108 + i * 0x20
def RES_MIRROR_PAGES_PAGES (i : Nat) : Fld := ⟨(RES_MIRROR_PAGES i), 0, 32⟩
/-- RES_MIRROR_REMOTE (R607). -/
def RES_MIRROR_REMOTE (i : Nat) : Nat := 0x300110 + i * 0x20
def RES_MIRROR_REMOTE_REMOTE (i : Nat) : Fld := ⟨(RES_MIRROR_REMOTE i), 12, 52⟩
/-- RES_FILL_CTRL (R607). -/
def RES_FILL_CTRL : Nat := 0x300200
def RES_FILL_CTRL_START : Fld := ⟨RES_FILL_CTRL, 0, 1⟩
def RES_FILL_CTRL_ABORT : Fld := ⟨RES_FILL_CTRL, 1, 1⟩
/-- RES_FILL_STATUS (R607). -/
def RES_FILL_STATUS : Nat := 0x300208
def RES_FILL_STATUS_STATE : Fld := ⟨RES_FILL_STATUS, 0, 3⟩
def RES_FILL_STATUS_ERROR : Fld := ⟨RES_FILL_STATUS, 8, 8⟩
def RES_FILL_STATUS_GRANULES : Fld := ⟨RES_FILL_STATUS, 32, 32⟩
/-- RES_SNAP_CFG (R607). -/
def RES_SNAP_CFG : Nat := 0x300300
def RES_SNAP_CFG_ENABLE : Fld := ⟨RES_SNAP_CFG, 0, 1⟩
def RES_SNAP_CFG_SPLIT : Fld := ⟨RES_SNAP_CFG, 1, 1⟩
def RES_SNAP_CFG_DRIVES : Fld := ⟨RES_SNAP_CFG, 4, 4⟩
/-- RES_SNAP_BASE (R607). -/
def RES_SNAP_BASE (i : Nat) : Nat := 0x300308 + i * 0x8
def RES_SNAP_BASE_LBA (i : Nat) : Fld := ⟨(RES_SNAP_BASE i), 0, 64⟩
/-- RES_SNAP_LBAS (R607). -/
def RES_SNAP_LBAS : Nat := 0x300328
def RES_SNAP_LBAS_LBA : Fld := ⟨RES_SNAP_LBAS, 0, 64⟩
/-- RES_SNAP_CTRL (R607). -/
def RES_SNAP_CTRL : Nat := 0x300330
def RES_SNAP_CTRL_ARM : Fld := ⟨RES_SNAP_CTRL, 0, 1⟩
def RES_SNAP_CTRL_RESTORE : Fld := ⟨RES_SNAP_CTRL, 1, 1⟩
def RES_SNAP_CTRL_CANCEL : Fld := ⟨RES_SNAP_CTRL, 2, 1⟩
def RES_SNAP_CTRL_STEP : Fld := ⟨RES_SNAP_CTRL, 32, 32⟩
/-- RES_SNAP_STATUS (R607). -/
def RES_SNAP_STATUS : Nat := 0x300338
def RES_SNAP_STATUS_STATE : Fld := ⟨RES_SNAP_STATUS, 0, 3⟩
def RES_SNAP_STATUS_ERROR : Fld := ⟨RES_SNAP_STATUS, 8, 8⟩
def RES_SNAP_STATUS_AREA : Fld := ⟨RES_SNAP_STATUS, 16, 1⟩
def RES_SNAP_STATUS_LAST_STEP : Fld := ⟨RES_SNAP_STATUS, 32, 32⟩
/-- RES_SNAP_TIME (R607). -/
def RES_SNAP_TIME : Nat := 0x300340
def RES_SNAP_TIME_MS : Fld := ⟨RES_SNAP_TIME, 0, 32⟩
def RES_SNAP_TIME_COMPLETED : Fld := ⟨RES_SNAP_TIME, 32, 32⟩
/-- SEC_STATUS (R626). -/
def SEC_STATUS : Nat := 0x200000
def SEC_STATUS_IDENTITY : Fld := ⟨SEC_STATUS, 0, 1⟩
def SEC_STATUS_SIGNERS_LOCKED : Fld := ⟨SEC_STATUS, 1, 1⟩
def SEC_STATUS_SIGNERS : Fld := ⟨SEC_STATUS, 2, 4⟩
def SEC_STATUS_QUOTE_BUSY : Fld := ⟨SEC_STATUS, 6, 1⟩
def SEC_STATUS_LOG_LOST : Fld := ⟨SEC_STATUS, 7, 1⟩
/-- SEC_SIGNER_ADDR (R626). -/
def SEC_SIGNER_ADDR : Nat := 0x200008
def SEC_SIGNER_ADDR_ADDR : Fld := ⟨SEC_SIGNER_ADDR, 0, 64⟩
/-- SEC_SIGNER_CTRL (R626). -/
def SEC_SIGNER_CTRL : Nat := 0x200010
def SEC_SIGNER_CTRL_LOAD : Fld := ⟨SEC_SIGNER_CTRL, 0, 1⟩
def SEC_SIGNER_CTRL_LOCK : Fld := ⟨SEC_SIGNER_CTRL, 1, 1⟩
/-- SEC_SIGNER_STATUS (R626). -/
def SEC_SIGNER_STATUS : Nat := 0x200018
def SEC_SIGNER_STATUS_ERROR : Fld := ⟨SEC_SIGNER_STATUS, 0, 8⟩
/-- SEC_COUNT (R626). -/
def SEC_COUNT : Nat := 0x200020
def SEC_COUNT_VERIFY_FAILS : Fld := ⟨SEC_COUNT, 0, 32⟩
def SEC_COUNT_LOG_LOST : Fld := ⟨SEC_COUNT, 32, 32⟩
/-- SEC_ID_PUBKEY (R626). -/
def SEC_ID_PUBKEY (i : Nat) : Nat := 0x200100 + i * 0x8
def SEC_ID_PUBKEY_WORD (i : Nat) : Fld := ⟨(SEC_ID_PUBKEY i), 0, 64⟩
/-- SEC_ID_DIGEST (R626). -/
def SEC_ID_DIGEST (i : Nat) : Nat := 0x200140 + i * 0x8
def SEC_ID_DIGEST_WORD (i : Nat) : Fld := ⟨(SEC_ID_DIGEST i), 0, 64⟩
/-- SEC_ROOT_DIGEST (R626). -/
def SEC_ROOT_DIGEST (i : Nat) : Nat := 0x200160 + i * 0x8
def SEC_ROOT_DIGEST_WORD (i : Nat) : Fld := ⟨(SEC_ROOT_DIGEST i), 0, 64⟩
/-- SEC_MEAS (R626). -/
def SEC_MEAS (i j : Nat) : Nat := 0x200200 + i * 0x20 + j * 0x8
def SEC_MEAS_WORD (i j : Nat) : Fld := ⟨(SEC_MEAS i j), 0, 64⟩
/-- SEC_EXTEND_DATA (R626). -/
def SEC_EXTEND_DATA (i : Nat) : Nat := 0x200300 + i * 0x8
def SEC_EXTEND_DATA_WORD (i : Nat) : Fld := ⟨(SEC_EXTEND_DATA i), 0, 64⟩
/-- SEC_EXTEND_CTRL (R626). -/
def SEC_EXTEND_CTRL : Nat := 0x200320
def SEC_EXTEND_CTRL_REG : Fld := ⟨SEC_EXTEND_CTRL, 0, 3⟩
def SEC_EXTEND_CTRL_GO : Fld := ⟨SEC_EXTEND_CTRL, 3, 1⟩
def SEC_EXTEND_CTRL_TYPE : Fld := ⟨SEC_EXTEND_CTRL, 16, 16⟩
/-- SEC_LOG_HEAD (R626). -/
def SEC_LOG_HEAD : Nat := 0x200328
def SEC_LOG_HEAD_SEQ : Fld := ⟨SEC_LOG_HEAD, 0, 32⟩
/-- SEC_NONCE (R626). -/
def SEC_NONCE (i : Nat) : Nat := 0x200400 + i * 0x8
def SEC_NONCE_WORD (i : Nat) : Fld := ⟨(SEC_NONCE i), 0, 64⟩
/-- SEC_QUOTE_CTRL (R626). -/
def SEC_QUOTE_CTRL : Nat := 0x200420
def SEC_QUOTE_CTRL_MR_MASK : Fld := ⟨SEC_QUOTE_CTRL, 0, 8⟩
def SEC_QUOTE_CTRL_GO : Fld := ⟨SEC_QUOTE_CTRL, 8, 1⟩
/-- SEC_QUOTE_STATUS (R626). -/
def SEC_QUOTE_STATUS : Nat := 0x200428
def SEC_QUOTE_STATUS_VALID : Fld := ⟨SEC_QUOTE_STATUS, 0, 1⟩
def SEC_QUOTE_STATUS_ERROR : Fld := ⟨SEC_QUOTE_STATUS, 8, 8⟩
def SEC_QUOTE_STATUS_COUNT : Fld := ⟨SEC_QUOTE_STATUS, 32, 32⟩
/-- SEC_QUOTE (R626). -/
def SEC_QUOTE (i : Nat) : Nat := 0x200800 + i * 0x8
def SEC_QUOTE_WORD (i : Nat) : Fld := ⟨(SEC_QUOTE i), 0, 64⟩
/-- SEC_LOG (R626). -/
def SEC_LOG (i j : Nat) : Nat := 0x204000 + i * 0x40 + j * 0x8
def SEC_LOG_WORD (i j : Nat) : Fld := ⟨(SEC_LOG i j), 0, 64⟩
/-- MON_CTRL (R648). -/
def MON_CTRL : Nat := 0x400000
def MON_CTRL_RUN : Fld := ⟨MON_CTRL, 0, 1⟩
def MON_CTRL_CLEAR : Fld := ⟨MON_CTRL, 1, 1⟩
/-- MON_HANG_ADDR (R648). -/
def MON_HANG_ADDR : Nat := 0x400010
def MON_HANG_ADDR_ADDR : Fld := ⟨MON_HANG_ADDR, 0, 64⟩
/-- MON_HANG_LEN (R648). -/
def MON_HANG_LEN : Nat := 0x400018
def MON_HANG_LEN_BYTES : Fld := ⟨MON_HANG_LEN, 0, 32⟩
/-- MON_HANG_CTRL (R648). -/
def MON_HANG_CTRL : Nat := 0x400020
def MON_HANG_CTRL_GO : Fld := ⟨MON_HANG_CTRL, 0, 1⟩
/-- MON_HANG_STATUS (R648). -/
def MON_HANG_STATUS : Nat := 0x400028
def MON_HANG_STATUS_STATE : Fld := ⟨MON_HANG_STATUS, 0, 2⟩
def MON_HANG_STATUS_ERROR : Fld := ⟨MON_HANG_STATUS, 8, 8⟩
def MON_HANG_STATUS_TRUNCATED : Fld := ⟨MON_HANG_STATUS, 16, 1⟩
def MON_HANG_STATUS_RECORDS : Fld := ⟨MON_HANG_STATUS, 32, 32⟩
/-- MON_RING_CFG (R648). -/
def MON_RING_CFG : Nat := 0x400040
def MON_RING_CFG_AFTER_FAULT : Fld := ⟨MON_RING_CFG, 0, 32⟩
def MON_RING_CFG_FORCE : Fld := ⟨MON_RING_CFG, 32, 1⟩
/-- MON_RING_STATUS (R648). -/
def MON_RING_STATUS : Nat := 0x400048
def MON_RING_STATUS_RECORDING : Fld := ⟨MON_RING_STATUS, 0, 1⟩
def MON_RING_STATUS_CAUSE : Fld := ⟨MON_RING_STATUS, 1, 6⟩
/-- MON_RING_MARK (R648). -/
def MON_RING_MARK : Nat := 0x400050
def MON_RING_MARK_UNIT : Fld := ⟨MON_RING_MARK, 0, 11⟩
def MON_RING_MARK_ARG : Fld := ⟨MON_RING_MARK, 16, 48⟩
/-- MON_UNIT (R648). -/
def MON_UNIT (i j : Nat) : Nat := 0x410000 + i * 0x20 + j * 0x8
def MON_UNIT_WORD (i j : Nat) : Fld := ⟨(MON_UNIT i j), 0, 64⟩
/-- MON_CHAN (R648). -/
def MON_CHAN (i j : Nat) : Nat := 0x440000 + i * 0x20 + j * 0x8
def MON_CHAN_WORD (i j : Nat) : Fld := ⟨(MON_CHAN i j), 0, 64⟩
/-- MON_PORT (R648). -/
def MON_PORT (i j : Nat) : Nat := 0x444000 + i * 0x40 + j * 0x8
def MON_PORT_WORD (i j : Nat) : Fld := ⟨(MON_PORT i j), 0, 64⟩
/-- MON_RING_COUNT (R648). -/
def MON_RING_COUNT (i : Nat) : Nat := 0x4C0000 + i * 0x8
def MON_RING_COUNT_WRITTEN (i : Nat) : Fld := ⟨(MON_RING_COUNT i), 0, 32⟩
/-- MON_RING (R648). -/
def MON_RING (i j : Nat) : Nat := 0x500000 + i * 0x400 + j * 0x8
def MON_RING_WORD (i j : Nat) : Fld := ⟨(MON_RING i j), 0, 64⟩
/-- MON_PART_CTRL (R649). -/
def MON_PART_CTRL (i : Nat) : Nat := 0x800000 + i * 0x10000
def MON_PART_CTRL_RUN (i : Nat) : Fld := ⟨(MON_PART_CTRL i), 0, 1⟩
def MON_PART_CTRL_LATCH (i : Nat) : Fld := ⟨(MON_PART_CTRL i), 1, 1⟩
def MON_PART_CTRL_CLEAR (i : Nat) : Fld := ⟨(MON_PART_CTRL i), 2, 1⟩
/-- MON_PART_LATCH_STAMP (R649). -/
def MON_PART_LATCH_STAMP (i : Nat) : Nat := 0x800008 + i * 0x10000
def MON_PART_LATCH_STAMP_STAMP (i : Nat) : Fld := ⟨(MON_PART_LATCH_STAMP i), 0, 64⟩
/-- MON_PART_CLASS (R649). -/
def MON_PART_CLASS (i j k : Nat) : Nat := 0x800100 + i * 0x10000 + j * 0x20 + k * 0x8
def MON_PART_CLASS_WORD (i j k : Nat) : Fld := ⟨(MON_PART_CLASS i j k), 0, 64⟩
/-- MON_PART_CLASS_L (R649). -/
def MON_PART_CLASS_L (i j k : Nat) : Nat := 0x800200 + i * 0x10000 + j * 0x20 + k * 0x8
def MON_PART_CLASS_L_WORD (i j k : Nat) : Fld := ⟨(MON_PART_CLASS_L i j k), 0, 64⟩
/-- MON_PART_REASON (R649). -/
def MON_PART_REASON (i j : Nat) : Nat := 0x800400 + i * 0x10000 + j * 0x8
def MON_PART_REASON_CYCLES (i j : Nat) : Fld := ⟨(MON_PART_REASON i j), 0, 64⟩
/-- MON_PART_REASON_L (R649). -/
def MON_PART_REASON_L (i j : Nat) : Nat := 0x800800 + i * 0x10000 + j * 0x8
def MON_PART_REASON_L_CYCLES (i j : Nat) : Fld := ⟨(MON_PART_REASON_L i j), 0, 64⟩
/-- MON_PC_CFG (R649). -/
def MON_PC_CFG (i : Nat) : Nat := 0x800C00 + i * 0x10000
def MON_PC_CFG_EN (i : Nat) : Fld := ⟨(MON_PC_CFG i), 0, 1⟩
def MON_PC_CFG_LOG2_PERIOD (i : Nat) : Fld := ⟨(MON_PC_CFG i), 1, 5⟩
def MON_PC_CFG_LOG2_ENTRIES (i : Nat) : Fld := ⟨(MON_PC_CFG i), 8, 5⟩
/-- MON_PC_BASE (R649). -/
def MON_PC_BASE (i : Nat) : Nat := 0x800C08 + i * 0x10000
def MON_PC_BASE_BASE (i : Nat) : Fld := ⟨(MON_PC_BASE i), 12, 52⟩
/-- MON_PC_HEAD (R649). -/
def MON_PC_HEAD (i : Nat) : Nat := 0x800C10 + i * 0x10000
def MON_PC_HEAD_HEAD (i : Nat) : Fld := ⟨(MON_PC_HEAD i), 0, 32⟩
/-- MON_PC_TAIL (R649). -/
def MON_PC_TAIL (i : Nat) : Nat := 0x800C18 + i * 0x10000
def MON_PC_TAIL_TAIL (i : Nat) : Fld := ⟨(MON_PC_TAIL i), 0, 32⟩
/-- MON_PC_LOST (R649). -/
def MON_PC_LOST (i : Nat) : Nat := 0x800C20 + i * 0x10000
def MON_PC_LOST_COUNT (i : Nat) : Fld := ⟨(MON_PC_LOST i), 0, 32⟩
/-- MON_PHANG_BASE (R649). -/
def MON_PHANG_BASE (i : Nat) : Nat := 0x800D00 + i * 0x10000
def MON_PHANG_BASE_BASE (i : Nat) : Fld := ⟨(MON_PHANG_BASE i), 6, 58⟩
/-- MON_PHANG_LEN (R649). -/
def MON_PHANG_LEN (i : Nat) : Nat := 0x800D08 + i * 0x10000
def MON_PHANG_LEN_BYTES (i : Nat) : Fld := ⟨(MON_PHANG_LEN i), 0, 32⟩
/-- MON_PHANG_CTRL (R649). -/
def MON_PHANG_CTRL (i : Nat) : Nat := 0x800D10 + i * 0x10000
def MON_PHANG_CTRL_GO (i : Nat) : Fld := ⟨(MON_PHANG_CTRL i), 0, 1⟩
def MON_PHANG_CTRL_ON_STALL (i : Nat) : Fld := ⟨(MON_PHANG_CTRL i), 1, 1⟩
/-- MON_PHANG_STATUS (R649). -/
def MON_PHANG_STATUS (i : Nat) : Nat := 0x800D18 + i * 0x10000
def MON_PHANG_STATUS_STATE (i : Nat) : Fld := ⟨(MON_PHANG_STATUS i), 0, 2⟩
def MON_PHANG_STATUS_ERROR (i : Nat) : Fld := ⟨(MON_PHANG_STATUS i), 8, 8⟩
def MON_PHANG_STATUS_TRUNCATED (i : Nat) : Fld := ⟨(MON_PHANG_STATUS i), 16, 1⟩
def MON_PHANG_STATUS_MISSED (i : Nat) : Fld := ⟨(MON_PHANG_STATUS i), 32, 32⟩
/-- RES_RECORD (R608). -/
def RES_RECORD (i j : Nat) : Nat := 0x301000 + i * 0x40 + j * 0x8
def RES_RECORD_WORD (i j : Nat) : Fld := ⟨(RES_RECORD i j), 0, 64⟩
/-- CFG_BOOT_LOG (R120). -/
def CFG_BOOT_LOG (i j : Nat) : Nat := 0x1000 + i * 0x40 + j * 0x8
def CFG_BOOT_LOG_WORD (i j : Nat) : Fld := ⟨(CFG_BOOT_LOG i j), 0, 64⟩

/-- Rows of the register table (R4, R6, R23), part 0. -/
def regTable0 : List RegDef := [
  { base := 0x0, dims := [], wide := false, rw := 0x0, rwl := 0x0, w1c := 0x0, wo := 0x0, reset := 0x4E530910 },
  { base := 0x8, dims := [], wide := false, rw := 0x0, rwl := 0x0, w1c := 0x0, wo := 0x0, reset := 0x0 },
  { base := 0x100, dims := [], wide := true, rw := 0xFFFFFFFFFFFFFFFF, rwl := 0x0, w1c := 0x0, wo := 0x0, reset := 0x0 },
  { base := 0x108, dims := [], wide := false, rw := 0xFFFFFFFF, rwl := 0x0, w1c := 0x0, wo := 0x0, reset := 0x0 },
  { base := 0x110, dims := [], wide := true, rw := 0xFFFFFFFFFFFFFFFF, rwl := 0x0, w1c := 0x0, wo := 0x0, reset := 0x1 },
  { base := 0x118, dims := [], wide := false, rw := 0x0, rwl := 0x0, w1c := 0x0, wo := 0xF, reset := 0x0 },
  { base := 0x120, dims := [], wide := false, rw := 0x0, rwl := 0x0, w1c := 0x0, wo := 0x0, reset := 0x0 },
  { base := 0x128, dims := [], wide := false, rw := 0x0, rwl := 0x0, w1c := 0x0, wo := 0x0, reset := 0x0 },
  { base := 0x130, dims := [], wide := true, rw := 0x0, rwl := 0x0, w1c := 0x0, wo := 0x0, reset := 0x0 },
  { base := 0x138, dims := [], wide := true, rw := 0x0, rwl := 0x0, w1c := 0x0, wo := 0x0, reset := 0x0 },
  { base := 0x140, dims := [], wide := false, rw := 0x0, rwl := 0xFFFFFFFF, w1c := 0x0, wo := 0x0, reset := 0x40000000 },
  { base := 0x200, dims := [(0x8, 4)], wide := true, rw := 0x0, rwl := 0x0, w1c := 0x0, wo := 0x0, reset := 0x0 },
  { base := 0x220, dims := [(0x8, 4)], wide := true, rw := 0x0, rwl := 0x0, w1c := 0x0, wo := 0x0, reset := 0x0 },
  { base := 0x240, dims := [(0x8, 4)], wide := true, rw := 0x0, rwl := 0x0, w1c := 0x0, wo := 0x0, reset := 0x0 },
  { base := 0x100000, dims := [], wide := false, rw := 0x0, rwl := 0x0, w1c := 0xF0, wo := 0x0, reset := 0x1 },
  { base := 0x100008, dims := [], wide := true, rw := 0x0, rwl := 0x0, w1c := 0x0, wo := 0x0, reset := 0x0 },
  { base := 0x100010, dims := [], wide := false, rw := 0x0, rwl := 0x0, w1c := 0x0, wo := 0x0, reset := 0x0 },
  { base := 0x100018, dims := [], wide := false, rw := 0x0, rwl := 0xFFFF, w1c := 0x0, wo := 0x0, reset := 0xA028 },
  { base := 0x10001C, dims := [], wide := false, rw := 0x0, rwl := 0xFF, w1c := 0x0, wo := 0x0, reset := 0x64 },
  { base := 0x100020, dims := [], wide := false, rw := 0x0, rwl := 0x1, w1c := 0x0, wo := 0x0, reset := 0x1 },
  { base := 0x100028, dims := [], wide := false, rw := 0x0, rwl := 0x0, w1c := 0x0, wo := 0xFFFF0001, reset := 0x0 },
  { base := 0x100030, dims := [], wide := true, rw := 0x0, rwl := 0x0, w1c := 0x0, wo := 0xFFFFFFFFFFFFFFFF, reset := 0x0 },
  { base := 0x100038, dims := [], wide := false, rw := 0x0, rwl := 0x0, w1c := 0x0, wo := 0xFFFFFFFF, reset := 0x0 },
  { base := 0x100040, dims := [], wide := true, rw := 0x0, rwl := 0x0, w1c := 0x0, wo := 0x0, reset := 0x0 },
  { base := 0x100048, dims := [], wide := false, rw := 0x0, rwl := 0x0, w1c := 0x0, wo := 0x0, reset := 0x0 },
  { base := 0x100050, dims := [], wide := true, rw := 0x0, rwl := 0x0, w1c := 0x0, wo := 0x0, reset := 0x0 },
  { base := 0x100058, dims := [], wide := true, rw := 0x0, rwl := 0x0, w1c := 0x0, wo := 0x0, reset := 0x0 },
  { base := 0x100060, dims := [], wide := true, rw := 0x0, rwl := 0x0, w1c := 0x0, wo := 0x0, reset := 0x0 }]
/-- Rows of the register table (R4, R6, R23), part 1. -/
def regTable1 : List RegDef := [
  { base := 0x100100, dims := [], wide := true, rw := 0x0, rwl := 0x0, w1c := 0x0, wo := 0x0, reset := 0x0 },
  { base := 0x100108, dims := [(0x8, 6)], wide := true, rw := 0x0, rwl := 0x0, w1c := 0x0, wo := 0x0, reset := 0x0 },
  { base := 0x300, dims := [], wide := true, rw := 0xFFFFFFFFFFFFFFFF, rwl := 0x0, w1c := 0x0, wo := 0x0, reset := 0x0 },
  { base := 0x308, dims := [], wide := false, rw := 0xFFFFFFFF, rwl := 0x0, w1c := 0x0, wo := 0x0, reset := 0x0 },
  { base := 0x310, dims := [], wide := false, rw := 0x0, rwl := 0x0, w1c := 0x0, wo := 0x1, reset := 0x0 },
  { base := 0x318, dims := [], wide := false, rw := 0x0, rwl := 0x0, w1c := 0x0, wo := 0x0, reset := 0x0 },
  { base := 0x320, dims := [(0x8, 4)], wide := true, rw := 0x0, rwl := 0x0, w1c := 0x0, wo := 0x0, reset := 0x0 },
  { base := 0x340, dims := [], wide := true, rw := 0x0, rwl := 0x0, w1c := 0x0, wo := 0x0, reset := 0x0 },
  { base := 0x348, dims := [], wide := true, rw := 0x0, rwl := 0x0, w1c := 0x0, wo := 0x0, reset := 0x0 },
  { base := 0xC00000, dims := [], wide := false, rw := 0x0, rwl := 0x0, w1c := 0x0, wo := 0x0, reset := 0x0 },
  { base := 0xC00008, dims := [], wide := false, rw := 0x0, rwl := 0x0, w1c := 0x0, wo := 0x0, reset := 0x0 },
  { base := 0xC00010, dims := [], wide := true, rw := 0x0, rwl := 0x0, w1c := 0x0, wo := 0x0, reset := 0x0 },
  { base := 0xC00018, dims := [], wide := true, rw := 0x0, rwl := 0x0, w1c := 0x0, wo := 0x0, reset := 0x0 },
  { base := 0xC00020, dims := [], wide := true, rw := 0x0, rwl := 0x0, w1c := 0x0, wo := 0x0, reset := 0x0 },
  { base := 0xC00028, dims := [], wide := true, rw := 0x0, rwl := 0x0, w1c := 0x0, wo := 0x0, reset := 0x0 },
  { base := 0xC00030, dims := [], wide := true, rw := 0x0, rwl := 0x0, w1c := 0x0, wo := 0x0, reset := 0x0 },
  { base := 0xC00038, dims := [], wide := true, rw := 0x0, rwl := 0x0, w1c := 0x0, wo := 0x0, reset := 0x0 },
  { base := 0xC00040, dims := [], wide := false, rw := 0x0, rwl := 0xFFFFFFFF, w1c := 0x0, wo := 0x0, reset := 0x1000000 },
  { base := 0xC00048, dims := [], wide := false, rw := 0xFFFF, rwl := 0x0, w1c := 0x0, wo := 0x0, reset := 0x4B0 },
  { base := 0xC00050, dims := [], wide := false, rw := 0x0, rwl := 0x0, w1c := 0x0, wo := 0x0, reset := 0x0 },
  { base := 0xC01000, dims := [(0x10, 1024)], wide := true, rw := 0xFFFFFFFFFFFFF003, rwl := 0x0, w1c := 0x0, wo := 0x0, reset := 0x0 },
  { base := 0xC01008, dims := [(0x10, 1024)], wide := true, rw := 0xFFFFFFFFFFFFF000, rwl := 0x0, w1c := 0x0, wo := 0x0, reset := 0x0 },
  { base := 0x400, dims := [], wide := false, rw := 0x3FFFF, rwl := 0x0, w1c := 0x0, wo := 0x0, reset := 0xF00 },
  { base := 0x1500000, dims := [(0x10000, 64)], wide := true, rw := 0x0, rwl := 0x0, w1c := 0x0, wo := 0x0, reset := 0x0 },
  { base := 0x1500008, dims := [(0x10000, 64)], wide := true, rw := 0x0, rwl := 0x0, w1c := 0x0, wo := 0x0, reset := 0x0 },
  { base := 0x1500010, dims := [(0x10000, 64)], wide := true, rw := 0x0, rwl := 0x0, w1c := 0x0, wo := 0x0, reset := 0x0 },
  { base := 0x1500018, dims := [(0x10000, 64)], wide := true, rw := 0x0, rwl := 0x0, w1c := 0x0, wo := 0x0, reset := 0x0 },
  { base := 0x1500040, dims := [(0x10000, 64)], wide := false, rw := 0x1, rwl := 0x0, w1c := 0x0, wo := 0x0, reset := 0x0 }]
/-- Rows of the register table (R4, R6, R23), part 2. -/
def regTable2 : List RegDef := [
  { base := 0x1500048, dims := [(0x10000, 64)], wide := false, rw := 0x0, rwl := 0x0, w1c := 0x700, wo := 0x0, reset := 0x1 },
  { base := 0x1500050, dims := [(0x10000, 64)], wide := true, rw := 0x0, rwl := 0x0, w1c := 0x0, wo := 0x0, reset := 0x0 },
  { base := 0x1500058, dims := [(0x10000, 64)], wide := true, rw := 0x0, rwl := 0x0, w1c := 0x0, wo := 0x0, reset := 0x0 },
  { base := 0x1500060, dims := [(0x10000, 64)], wide := false, rw := 0x0, rwl := 0xFFFFFFFF, w1c := 0x0, wo := 0x0, reset := 0x100000 },
  { base := 0x4000000, dims := [(0x80, 262144)], wide := true, rw := 0xFFFFFFFFFFFFF001, rwl := 0x0, w1c := 0x0, wo := 0x0, reset := 0x0 },
  { base := 0x4000008, dims := [(0x80, 262144)], wide := false, rw := 0x1FF7F, rwl := 0x0, w1c := 0x0, wo := 0x0, reset := 0x0 },
  { base := 0x4000010, dims := [(0x80, 262144)], wide := false, rw := 0xFFFF, rwl := 0x0, w1c := 0x0, wo := 0x0, reset := 0x0 },
  { base := 0x4000018, dims := [(0x80, 262144)], wide := false, rw := 0xFFFF, rwl := 0x0, w1c := 0x0, wo := 0x0, reset := 0x0 },
  { base := 0x4000020, dims := [(0x80, 262144)], wide := true, rw := 0x0, rwl := 0x0, w1c := 0x100, wo := 0x0, reset := 0x0 },
  { base := 0x4000028, dims := [(0x80, 262144)], wide := true, rw := 0x0, rwl := 0x0, w1c := 0x0, wo := 0x0, reset := 0x0 },
  { base := 0x1900000, dims := [(0x40, 16384)], wide := true, rw := 0xFFFFFFFF, rwl := 0x0, w1c := 0x100000000, wo := 0x0, reset := 0x0 },
  { base := 0x1900008, dims := [(0x40, 16384)], wide := true, rw := 0x0, rwl := 0x0, w1c := 0x0, wo := 0xFFFFFFFF, reset := 0x0 },
  { base := 0x1900010, dims := [(0x40, 16384)], wide := true, rw := 0xFFFF0001FFFFFFFF, rwl := 0x0, w1c := 0x0, wo := 0x0, reset := 0x0 },
  { base := 0x1900018, dims := [(0x40, 16384)], wide := true, rw := 0x0, rwl := 0x0, w1c := 0x0, wo := 0x0, reset := 0x0 },
  { base := 0x2000000, dims := [(0x1000, 1536)], wide := true, rw := 0x0, rwl := 0x0, w1c := 0x0, wo := 0x0, reset := 0x8040000000 },
  { base := 0x2000008, dims := [(0x1000, 1536), (0x8, 4)], wide := true, rw := 0x0, rwl := 0x0, w1c := 0x0, wo := 0x0, reset := 0x0 },
  { base := 0x2000040, dims := [(0x1000, 1536)], wide := true, rw := 0x0, rwl := 0x1FFFFFFFF, w1c := 0x0, wo := 0x0, reset := 0x4000000 },
  { base := 0x2000048, dims := [(0x1000, 1536)], wide := true, rw := 0x0, rwl := 0x0, w1c := 0x0, wo := 0x0, reset := 0x0 },
  { base := 0x2000050, dims := [(0x1000, 1536)], wide := true, rw := 0x0, rwl := 0x0, w1c := 0x0, wo := 0x0, reset := 0x0 },
  { base := 0x2000058, dims := [(0x1000, 1536)], wide := true, rw := 0x0, rwl := 0x0, w1c := 0x0, wo := 0x0, reset := 0x0 },
  { base := 0x2000100, dims := [(0x1000, 1536), (0x20, 4)], wide := true, rw := 0x0, rwl := 0x0, w1c := 0x0, wo := 0x0, reset := 0x0 },
  { base := 0x2000108, dims := [(0x1000, 1536), (0x20, 4)], wide := true, rw := 0x0, rwl := 0x0, w1c := 0x0, wo := 0x0, reset := 0x0 },
  { base := 0x2000110, dims := [(0x1000, 1536), (0x20, 4)], wide := true, rw := 0x0, rwl := 0x0, w1c := 0x0, wo := 0x0, reset := 0x0 },
  { base := 0x2000118, dims := [(0x1000, 1536), (0x20, 4)], wide := true, rw := 0x0, rwl := 0x0, w1c := 0x0, wo := 0x0, reset := 0x0 },
  { base := 0x2000200, dims := [(0x1000, 1536)], wide := true, rw := 0x0, rwl := 0x0, w1c := 0x0, wo := 0x0, reset := 0x0 },
  { base := 0x2000208, dims := [(0x1000, 1536)], wide := true, rw := 0x0, rwl := 0x0, w1c := 0x0, wo := 0x0, reset := 0x0 },
  { base := 0x2000210, dims := [(0x1000, 1536)], wide := true, rw := 0x0, rwl := 0x0, w1c := 0x0, wo := 0x0, reset := 0x0 },
  { base := 0x2000218, dims := [(0x1000, 1536)], wide := true, rw := 0x0, rwl := 0x0, w1c := 0x0, wo := 0x0, reset := 0x0 }]
/-- Rows of the register table (R4, R6, R23), part 3. -/
def regTable3 : List RegDef := [
  { base := 0x2000300, dims := [(0x1000, 1536), (0x8, 32)], wide := true, rw := 0x0, rwl := 0x0, w1c := 0x0, wo := 0x0, reset := 0x0 },
  { base := 0x2000400, dims := [(0x1000, 1536), (0x8, 16)], wide := true, rw := 0x0, rwl := 0x0, w1c := 0x0, wo := 0x0, reset := 0x0 },
  { base := 0x2800000, dims := [(0x1000, 1536)], wide := true, rw := 0x0, rwl := 0x0, w1c := 0x0, wo := 0x0, reset := 0x0 },
  { base := 0x2800008, dims := [(0x1000, 1536)], wide := true, rw := 0x0, rwl := 0x0, w1c := 0x0, wo := 0x0, reset := 0x0 },
  { base := 0x2800010, dims := [(0x1000, 1536)], wide := true, rw := 0x0, rwl := 0x0, w1c := 0x0, wo := 0x0, reset := 0x0 },
  { base := 0x2800018, dims := [(0x1000, 1536)], wide := true, rw := 0x0, rwl := 0x0, w1c := 0x0, wo := 0x0, reset := 0x0 },
  { base := 0x2800020, dims := [(0x1000, 1536)], wide := true, rw := 0x0, rwl := 0x0, w1c := 0x0, wo := 0x0, reset := 0x0 },
  { base := 0x2800028, dims := [(0x1000, 1536)], wide := true, rw := 0x0, rwl := 0x0, w1c := 0x0, wo := 0x0, reset := 0x0 },
  { base := 0x3000000, dims := [(0x1000, 1536)], wide := true, rw := 0x0, rwl := 0x0, w1c := 0x0, wo := 0x0, reset := 0x0 },
  { base := 0x3000008, dims := [(0x1000, 1536)], wide := true, rw := 0x0, rwl := 0x0, w1c := 0x0, wo := 0x0, reset := 0x0 },
  { base := 0x3000010, dims := [(0x1000, 1536)], wide := true, rw := 0x0, rwl := 0x0, w1c := 0x0, wo := 0x0, reset := 0x0 },
  { base := 0x3000018, dims := [(0x1000, 1536)], wide := true, rw := 0x0, rwl := 0x0, w1c := 0x0, wo := 0x0, reset := 0x0 },
  { base := 0xF01000, dims := [(0x80, 64)], wide := true, rw := 0x0, rwl := 0x0, w1c := 0x0, wo := 0x0, reset := 0x0 },
  { base := 0xF01008, dims := [(0x80, 64)], wide := true, rw := 0xFFFFFFFF0000003F, rwl := 0x0, w1c := 0x0, wo := 0x0, reset := 0x0 },
  { base := 0xF01010, dims := [(0x80, 64)], wide := true, rw := 0xFFFFFFFF, rwl := 0x0, w1c := 0x0, wo := 0x0, reset := 0x0 },
  { base := 0xF01018, dims := [(0x80, 64)], wide := true, rw := 0xFFFFFFFFFFFFF000, rwl := 0x0, w1c := 0x0, wo := 0x0, reset := 0x0 },
  { base := 0xF01020, dims := [(0x80, 64)], wide := true, rw := 0xFFFFFFFF, rwl := 0x0, w1c := 0x0, wo := 0x0, reset := 0x0 },
  { base := 0xF01028, dims := [(0x80, 64)], wide := true, rw := 0xFFFFFFFFFFFFFFC1, rwl := 0x0, w1c := 0x0, wo := 0x0, reset := 0x0 },
  { base := 0xF01030, dims := [(0x80, 64)], wide := true, rw := 0xFFFF, rwl := 0x0, w1c := 0x0, wo := 0x0, reset := 0xFFFF },
  { base := 0xF01038, dims := [(0x80, 64)], wide := true, rw := 0xFFFFFFFF, rwl := 0x0, w1c := 0x0, wo := 0x0, reset := 0x0 },
  { base := 0xF01040, dims := [(0x80, 64)], wide := false, rw := 0x0, rwl := 0x0, w1c := 0x7, wo := 0x0, reset := 0x0 },
  { base := 0xF01048, dims := [(0x80, 64)], wide := true, rw := 0x0, rwl := 0x0, w1c := 0x0, wo := 0x0, reset := 0x0 },
  { base := 0xF01050, dims := [(0x80, 64)], wide := true, rw := 0x0, rwl := 0x0, w1c := 0x0, wo := 0x0, reset := 0x0 },
  { base := 0xF01058, dims := [(0x80, 64)], wide := true, rw := 0x0, rwl := 0x0, w1c := 0x0, wo := 0x0, reset := 0x0 },
  { base := 0xF01060, dims := [(0x80, 64)], wide := true, rw := 0x0, rwl := 0x0, w1c := 0x0, wo := 0x0, reset := 0x0 },
  { base := 0xF04000, dims := [(0x40, 64), (0x8, 4)], wide := true, rw := 0x0, rwl := 0x0, w1c := 0x0, wo := 0x0, reset := 0x0 },
  { base := 0xF04020, dims := [(0x40, 64)], wide := true, rw := 0x0, rwl := 0x0, w1c := 0x0, wo := 0x0, reset := 0x0 },
  { base := 0xF04028, dims := [(0x40, 64)], wide := true, rw := 0x0, rwl := 0x0, w1c := 0x0, wo := 0x0, reset := 0x0 }]
/-- Rows of the register table (R4, R6, R23), part 4. -/
def regTable4 : List RegDef := [
  { base := 0xF04030, dims := [(0x40, 64)], wide := true, rw := 0x0, rwl := 0x0, w1c := 0x0, wo := 0x0, reset := 0x0 },
  { base := 0xF04038, dims := [(0x40, 64)], wide := true, rw := 0x0, rwl := 0x0, w1c := 0x0, wo := 0x0, reset := 0x0 },
  { base := 0x500, dims := [], wide := true, rw := 0x0, rwl := 0x0, w1c := 0x0, wo := 0x0, reset := 0x0 },
  { base := 0x508, dims := [], wide := true, rw := 0x0, rwl := 0x1F, w1c := 0x0, wo := 0x0, reset := 0x8 },
  { base := 0x1500080, dims := [(0x10000, 64)], wide := true, rw := 0x0, rwl := 0x0, w1c := 0x0, wo := 0x0, reset := 0x0 },
  { base := 0x1100000, dims := [(0x20000, 32)], wide := true, rw := 0x0, rwl := 0x0, w1c := 0x20000, wo := 0x0, reset := 0x0 },
  { base := 0x1100008, dims := [(0x20000, 32)], wide := true, rw := 0x0, rwl := 0x0, w1c := 0x0, wo := 0x0, reset := 0x0 },
  { base := 0x1100010, dims := [(0x20000, 32)], wide := true, rw := 0x0, rwl := 0x0, w1c := 0x0, wo := 0x0, reset := 0x0 },
  { base := 0x1100018, dims := [(0x20000, 32)], wide := true, rw := 0x0, rwl := 0xFF, w1c := 0x0, wo := 0x0, reset := 0x18 },
  { base := 0x1100100, dims := [(0x20000, 32), (0x8, 16)], wide := true, rw := 0x0, rwl := 0x0, w1c := 0x0, wo := 0x0, reset := 0x0 },
  { base := 0x1100200, dims := [(0x20000, 32), (0x8, 16)], wide := true, rw := 0x0, rwl := 0x0, w1c := 0x0, wo := 0x0, reset := 0x0 },
  { base := 0x1100300, dims := [(0x20000, 32), (0x8, 16)], wide := true, rw := 0x0, rwl := 0x0, w1c := 0x0, wo := 0x0, reset := 0x0 },
  { base := 0x1000000, dims := [], wide := true, rw := 0x0, rwl := 0xFFFFFFFF, w1c := 0x0, wo := 0x0, reset := 0x3000 },
  { base := 0x1000008, dims := [], wide := true, rw := 0x0, rwl := 0x0, w1c := 0x0, wo := 0x0, reset := 0x0 },
  { base := 0x1001000, dims := [(0x80, 64)], wide := true, rw := 0xFFFFFFFFFFFFF000, rwl := 0x0, w1c := 0x0, wo := 0x0, reset := 0x0 },
  { base := 0x1001008, dims := [(0x80, 64)], wide := true, rw := 0xFFFFFFFFFFFFF000, rwl := 0x0, w1c := 0x0, wo := 0x0, reset := 0x0 },
  { base := 0x1001010, dims := [(0x80, 64)], wide := true, rw := 0xFFFF, rwl := 0x0, w1c := 0x0, wo := 0x0, reset := 0xFFFF },
  { base := 0x1001018, dims := [(0x80, 64)], wide := true, rw := 0x0, rwl := 0x0, w1c := 0x0, wo := 0x0, reset := 0xFFFF000000000000 },
  { base := 0x1001020, dims := [(0x80, 64)], wide := true, rw := 0x0, rwl := 0x0, w1c := 0xB, wo := 0x0, reset := 0x0 },
  { base := 0x1001028, dims := [(0x80, 64)], wide := true, rw := 0x0, rwl := 0x0, w1c := 0x0, wo := 0x0, reset := 0x0 },
  { base := 0x1001030, dims := [(0x80, 64)], wide := true, rw := 0x0, rwl := 0x0, w1c := 0x0, wo := 0x0, reset := 0x0 },
  { base := 0x1001038, dims := [(0x80, 64)], wide := true, rw := 0x0, rwl := 0x0, w1c := 0x0, wo := 0x0, reset := 0x0 },
  { base := 0x1001040, dims := [(0x80, 64)], wide := true, rw := 0x0, rwl := 0x0, w1c := 0x0, wo := 0x0, reset := 0x0 },
  { base := 0x1001048, dims := [(0x80, 64)], wide := true, rw := 0x0, rwl := 0x0, w1c := 0x0, wo := 0x0, reset := 0x0 },
  { base := 0x1001050, dims := [(0x80, 64)], wide := true, rw := 0x0, rwl := 0x0, w1c := 0x0, wo := 0x0, reset := 0x0 },
  { base := 0xD00000, dims := [], wide := true, rw := 0x0, rwl := 0x0, w1c := 0x0, wo := 0x0, reset := 0x0 },
  { base := 0xD00008, dims := [], wide := true, rw := 0x0, rwl := 0x0, w1c := 0x0, wo := 0x0, reset := 0x0 },
  { base := 0xD00010, dims := [], wide := true, rw := 0x0, rwl := 0x0, w1c := 0x0, wo := 0x0, reset := 0x0 }]
/-- Rows of the register table (R4, R6, R23), part 5. -/
def regTable5 : List RegDef := [
  { base := 0xD00018, dims := [], wide := true, rw := 0x0, rwl := 0xFFFFFFFF, w1c := 0x0, wo := 0x0, reset := 0x100000 },
  { base := 0xD00020, dims := [], wide := true, rw := 0x0, rwl := 0xFFFF, w1c := 0x0, wo := 0x0, reset := 0x0 },
  { base := 0xD00028, dims := [], wide := true, rw := 0x0, rwl := 0xFFFFFFFFFF, w1c := 0x0, wo := 0x0, reset := 0x4000006000 },
  { base := 0xD00030, dims := [], wide := true, rw := 0x0, rwl := 0xF, w1c := 0x0, wo := 0x0, reset := 0x8 },
  { base := 0xD00038, dims := [], wide := true, rw := 0x0, rwl := 0x0, w1c := 0x0, wo := 0x0, reset := 0x0 },
  { base := 0xD00040, dims := [], wide := true, rw := 0x0, rwl := 0x0, w1c := 0x0, wo := 0x0, reset := 0x0 },
  { base := 0xD00048, dims := [], wide := true, rw := 0x0, rwl := 0x0, w1c := 0x0, wo := 0x0, reset := 0x0 },
  { base := 0xD00050, dims := [], wide := true, rw := 0x0, rwl := 0x0, w1c := 0x0, wo := 0x0, reset := 0x0 },
  { base := 0xD00058, dims := [], wide := true, rw := 0x0, rwl := 0x0, w1c := 0x0, wo := 0x0, reset := 0x0 },
  { base := 0xE00000, dims := [(0x8000, 32)], wide := true, rw := 0x0, rwl := 0x0, w1c := 0x40, wo := 0x0, reset := 0xFFFF00000000 },
  { base := 0xE00008, dims := [(0x8000, 32)], wide := true, rw := 0x0, rwl := 0xFFFFFF01, w1c := 0x0, wo := 0x0, reset := 0x1040800 },
  { base := 0xE00010, dims := [(0x8000, 32)], wide := true, rw := 0x0, rwl := 0x0, w1c := 0x0, wo := 0x0, reset := 0x0 },
  { base := 0xE00018, dims := [(0x8000, 32)], wide := true, rw := 0x0, rwl := 0x0, w1c := 0x0, wo := 0x0, reset := 0x0 },
  { base := 0xE00020, dims := [(0x8000, 32)], wide := true, rw := 0x0, rwl := 0x0, w1c := 0x0, wo := 0x0, reset := 0x0 },
  { base := 0xE00028, dims := [(0x8000, 32)], wide := true, rw := 0x0, rwl := 0x0, w1c := 0x0, wo := 0x0, reset := 0x0 },
  { base := 0xE00030, dims := [(0x8000, 32)], wide := true, rw := 0x0, rwl := 0x0, w1c := 0x0, wo := 0x0, reset := 0x0 },
  { base := 0x300000, dims := [], wide := true, rw := 0x0, rwl := 0x0, w1c := 0xB, wo := 0x0, reset := 0x0 },
  { base := 0x300008, dims := [], wide := true, rw := 0x0, rwl := 0x0, w1c := 0x0, wo := 0x0, reset := 0x0 },
  { base := 0x300010, dims := [], wide := true, rw := 0x0, rwl := 0x0, w1c := 0x0, wo := 0x0, reset := 0x0 },
  { base := 0x300018, dims := [], wide := true, rw := 0x0, rwl := 0x0, w1c := 0x0, wo := 0x0, reset := 0x0 },
  { base := 0x300020, dims := [], wide := true, rw := 0x0, rwl := 0x0, w1c := 0x0, wo := 0x0, reset := 0x0 },
  { base := 0x300028, dims := [], wide := true, rw := 0xFF, rwl := 0x0, w1c := 0x0, wo := 0x0, reset := 0x3 },
  { base := 0x300100, dims := [(0x20, 4)], wide := true, rw := 0xFFFFFFFFFFFFF001, rwl := 0x0, w1c := 0x0, wo := 0x0, reset := 0x0 },
  { base := 0x300108, dims := [(0x20, 4)], wide := true, rw := 0xFFFFFFFF, rwl := 0x0, w1c := 0x0, wo := 0x0, reset := 0x0 },
  { base := 0x300110, dims := [(0x20, 4)], wide := true, rw := 0xFFFFFFFFFFFFF000, rwl := 0x0, w1c := 0x0, wo := 0x0, reset := 0x0 },
  { base := 0x300200, dims := [], wide := false, rw := 0x0, rwl := 0x0, w1c := 0x0, wo := 0x3, reset := 0x0 },
  { base := 0x300208, dims := [], wide := true, rw := 0x0, rwl := 0x0, w1c := 0x0, wo := 0x0, reset := 0x0 },
  { base := 0x300300, dims := [], wide := true, rw := 0x3, rwl := 0x0, w1c := 0x0, wo := 0x0, reset := 0x0 }]
/-- Rows of the register table (R4, R6, R23), part 6. -/
def regTable6 : List RegDef := [
  { base := 0x300308, dims := [(0x8, 4)], wide := true, rw := 0xFFFFFFFFFFFFFFFF, rwl := 0x0, w1c := 0x0, wo := 0x0, reset := 0x0 },
  { base := 0x300328, dims := [], wide := true, rw := 0xFFFFFFFFFFFFFFFF, rwl := 0x0, w1c := 0x0, wo := 0x0, reset := 0x0 },
  { base := 0x300330, dims := [], wide := true, rw := 0x0, rwl := 0x0, w1c := 0x0, wo := 0xFFFFFFFF00000007, reset := 0x0 },
  { base := 0x300338, dims := [], wide := true, rw := 0x0, rwl := 0x0, w1c := 0x0, wo := 0x0, reset := 0x0 },
  { base := 0x300340, dims := [], wide := true, rw := 0x0, rwl := 0x0, w1c := 0x0, wo := 0x0, reset := 0x0 },
  { base := 0x200000, dims := [], wide := true, rw := 0x0, rwl := 0x0, w1c := 0x80, wo := 0x0, reset := 0x0 },
  { base := 0x200008, dims := [], wide := true, rw := 0xFFFFFFFFFFFFFFFF, rwl := 0x0, w1c := 0x0, wo := 0x0, reset := 0x0 },
  { base := 0x200010, dims := [], wide := false, rw := 0x0, rwl := 0x0, w1c := 0x0, wo := 0x3, reset := 0x0 },
  { base := 0x200018, dims := [], wide := true, rw := 0x0, rwl := 0x0, w1c := 0x0, wo := 0x0, reset := 0x0 },
  { base := 0x200020, dims := [], wide := true, rw := 0x0, rwl := 0x0, w1c := 0x0, wo := 0x0, reset := 0x0 },
  { base := 0x200100, dims := [(0x8, 8)], wide := true, rw := 0x0, rwl := 0x0, w1c := 0x0, wo := 0x0, reset := 0x0 },
  { base := 0x200140, dims := [(0x8, 4)], wide := true, rw := 0x0, rwl := 0x0, w1c := 0x0, wo := 0x0, reset := 0x0 },
  { base := 0x200160, dims := [(0x8, 4)], wide := true, rw := 0x0, rwl := 0x0, w1c := 0x0, wo := 0x0, reset := 0x0 },
  { base := 0x200200, dims := [(0x20, 8), (0x8, 4)], wide := true, rw := 0x0, rwl := 0x0, w1c := 0x0, wo := 0x0, reset := 0x0 },
  { base := 0x200300, dims := [(0x8, 4)], wide := true, rw := 0xFFFFFFFFFFFFFFFF, rwl := 0x0, w1c := 0x0, wo := 0x0, reset := 0x0 },
  { base := 0x200320, dims := [], wide := false, rw := 0x0, rwl := 0x0, w1c := 0x0, wo := 0xFFFF000F, reset := 0x0 },
  { base := 0x200328, dims := [], wide := false, rw := 0xFFFFFFFF, rwl := 0x0, w1c := 0x0, wo := 0x0, reset := 0x0 },
  { base := 0x200400, dims := [(0x8, 4)], wide := true, rw := 0xFFFFFFFFFFFFFFFF, rwl := 0x0, w1c := 0x0, wo := 0x0, reset := 0x0 },
  { base := 0x200420, dims := [], wide := false, rw := 0x0, rwl := 0x0, w1c := 0x0, wo := 0x1FF, reset := 0x0 },
  { base := 0x200428, dims := [], wide := true, rw := 0x0, rwl := 0x0, w1c := 0x0, wo := 0x0, reset := 0x0 },
  { base := 0x200800, dims := [(0x8, 64)], wide := true, rw := 0x0, rwl := 0x0, w1c := 0x0, wo := 0x0, reset := 0x0 },
  { base := 0x204000, dims := [(0x40, 256), (0x8, 8)], wide := true, rw := 0x0, rwl := 0x0, w1c := 0x0, wo := 0x0, reset := 0x0 },
  { base := 0x400000, dims := [], wide := true, rw := 0x1, rwl := 0x0, w1c := 0x0, wo := 0x2, reset := 0x1 },
  { base := 0x400010, dims := [], wide := true, rw := 0xFFFFFFFFFFFFFFFF, rwl := 0x0, w1c := 0x0, wo := 0x0, reset := 0x0 },
  { base := 0x400018, dims := [], wide := false, rw := 0xFFFFFFFF, rwl := 0x0, w1c := 0x0, wo := 0x0, reset := 0x0 },
  { base := 0x400020, dims := [], wide := false, rw := 0x0, rwl := 0x0, w1c := 0x0, wo := 0x1, reset := 0x0 },
  { base := 0x400028, dims := [], wide := true, rw := 0x0, rwl := 0x0, w1c := 0x0, wo := 0x0, reset := 0x0 },
  { base := 0x400040, dims := [], wide := true, rw := 0x100000000, rwl := 0xFFFFFFFF, w1c := 0x0, wo := 0x0, reset := 0x40000000 }]
/-- Rows of the register table (R4, R6, R23), part 7. -/
def regTable7 : List RegDef := [
  { base := 0x400048, dims := [], wide := false, rw := 0x0, rwl := 0x0, w1c := 0x0, wo := 0x0, reset := 0x0 },
  { base := 0x400050, dims := [], wide := true, rw := 0x0, rwl := 0x0, w1c := 0x0, wo := 0xFFFFFFFFFFFF07FF, reset := 0x0 },
  { base := 0x410000, dims := [(0x20, 6144), (0x8, 3)], wide := true, rw := 0x0, rwl := 0x0, w1c := 0x0, wo := 0x0, reset := 0x0 },
  { base := 0x440000, dims := [(0x20, 512), (0x8, 3)], wide := true, rw := 0x0, rwl := 0x0, w1c := 0x0, wo := 0x0, reset := 0x0 },
  { base := 0x444000, dims := [(0x40, 32), (0x8, 6)], wide := true, rw := 0x0, rwl := 0x0, w1c := 0x0, wo := 0x0, reset := 0x0 },
  { base := 0x4C0000, dims := [(0x8, 1605)], wide := false, rw := 0x0, rwl := 0x0, w1c := 0x0, wo := 0x0, reset := 0x0 },
  { base := 0x500000, dims := [(0x400, 1605), (0x8, 128)], wide := true, rw := 0x0, rwl := 0x0, w1c := 0x0, wo := 0x0, reset := 0x0 },
  { base := 0x800000, dims := [(0x10000, 64)], wide := false, rw := 0x1, rwl := 0x0, w1c := 0x0, wo := 0x6, reset := 0x1 },
  { base := 0x800008, dims := [(0x10000, 64)], wide := true, rw := 0x0, rwl := 0x0, w1c := 0x0, wo := 0x0, reset := 0x0 },
  { base := 0x800100, dims := [(0x10000, 64), (0x20, 5), (0x8, 4)], wide := true, rw := 0x0, rwl := 0x0, w1c := 0x0, wo := 0x0, reset := 0x0 },
  { base := 0x800200, dims := [(0x10000, 64), (0x20, 5), (0x8, 4)], wide := true, rw := 0x0, rwl := 0x0, w1c := 0x0, wo := 0x0, reset := 0x0 },
  { base := 0x800400, dims := [(0x10000, 64), (0x8, 80)], wide := true, rw := 0x0, rwl := 0x0, w1c := 0x0, wo := 0x0, reset := 0x0 },
  { base := 0x800800, dims := [(0x10000, 64), (0x8, 80)], wide := true, rw := 0x0, rwl := 0x0, w1c := 0x0, wo := 0x0, reset := 0x0 },
  { base := 0x800C00, dims := [(0x10000, 64)], wide := false, rw := 0x1F3F, rwl := 0x0, w1c := 0x0, wo := 0x0, reset := 0xC20 },
  { base := 0x800C08, dims := [(0x10000, 64)], wide := true, rw := 0xFFFFFFFFFFFFF000, rwl := 0x0, w1c := 0x0, wo := 0x0, reset := 0x0 },
  { base := 0x800C10, dims := [(0x10000, 64)], wide := false, rw := 0xFFFFFFFF, rwl := 0x0, w1c := 0x0, wo := 0x0, reset := 0x0 },
  { base := 0x800C18, dims := [(0x10000, 64)], wide := false, rw := 0x0, rwl := 0x0, w1c := 0x0, wo := 0x0, reset := 0x0 },
  { base := 0x800C20, dims := [(0x10000, 64)], wide := false, rw := 0x0, rwl := 0x0, w1c := 0x0, wo := 0x0, reset := 0x0 },
  { base := 0x800D00, dims := [(0x10000, 64)], wide := true, rw := 0xFFFFFFFFFFFFFFC0, rwl := 0x0, w1c := 0x0, wo := 0x0, reset := 0x0 },
  { base := 0x800D08, dims := [(0x10000, 64)], wide := false, rw := 0xFFFFFFFF, rwl := 0x0, w1c := 0x0, wo := 0x0, reset := 0x0 },
  { base := 0x800D10, dims := [(0x10000, 64)], wide := false, rw := 0x2, rwl := 0x0, w1c := 0x0, wo := 0x1, reset := 0x0 },
  { base := 0x800D18, dims := [(0x10000, 64)], wide := true, rw := 0x0, rwl := 0x0, w1c := 0x0, wo := 0x0, reset := 0x0 },
  { base := 0x301000, dims := [(0x40, 16), (0x8, 8)], wide := true, rw := 0x0, rwl := 0x0, w1c := 0x0, wo := 0x0, reset := 0x0 },
  { base := 0x1000, dims := [(0x40, 64), (0x8, 8)], wide := true, rw := 0x0, rwl := 0x0, w1c := 0x0, wo := 0x0, reset := 0x0 }]

/-- The whole register table. -/
def regTable : List RegDef := regTable0 ++ regTable1 ++ regTable2 ++ regTable3 ++ regTable4 ++ regTable5 ++ regTable6 ++ regTable7

end Sys2Proof.Machine
end

