-- ==== Sys2Proof/Machine/Store.lean ====
section
/-! DEFINITION. Sparse data by key: a list of (key, value) pairs in one canonical form, keys strictly rising and no
value equal to what an unlisted key reads as. Device memory, the register store and the per-unit tables use it. -/

namespace Sys2Proof.Machine

/-- A table from numbers to values, written out. -/
abbrev Store (α : Type) := List (Nat × α)

/-- The value listed for a key, or the default of that key. -/
def Store.get {α : Type} (dflt : Nat → α) (k : Nat) : Store α → α
  | [] => dflt k
  | (k', v) :: t => if k' = k then v else Store.get dflt k t

/-- Put a pair before the first greater key. -/
def Store.ins {α : Type} (k : Nat) (v : α) : Store α → Store α
  | [] => [(k, v)]
  | (k', v') :: t => if k < k' then (k, v) :: (k', v') :: t else (k', v') :: Store.ins k v t

/-- Drop every pair whose key lies in a set. -/
def Store.drop {α : Type} (p : Nat → Bool) (s : Store α) : Store α :=
  s.filter fun kv => !p kv.1

/-- Write a value: the key's old pair goes, and the new one is listed unless it equals the key's default. -/
def Store.put {α : Type} [DecidableEq α] (dflt : Nat → α) (k : Nat) (v : α) (s : Store α) : Store α :=
  if v = dflt k then s.drop (fun k' => k' == k) else Store.ins k v (s.drop fun k' => k' == k)

/-- Keys strictly rising from a lower bound, and no pair that an unlisted key would read as. -/
def Store.wfFrom {α : Type} [DecidableEq α] (dflt : Nat → α) : Nat → Store α → Bool
  | _, [] => true
  | n, (k, v) :: t => decide (n ≤ k) && decide (v ≠ dflt k) && Store.wfFrom dflt (k + 1) t

/-- The canonical form. -/
def Store.wf {α : Type} [DecidableEq α] (dflt : Nat → α) (s : Store α) : Bool :=
  Store.wfFrom dflt 0 s

end Sys2Proof.Machine
end

