-- ==== Sys2Proof/Machine/State.lean ====
section
/-! DEFINITION. The state of the block: the queue of waiting commands, the register store, device memory and the state
of every engine the spec describes. All of it is plain data. -/

namespace Sys2Proof.Machine

/-- The reasons for which a step can end the run with a fault. No command of this block raises one: every detected
fault of the spec is an effect on the state (R570). -/
inductive Fault where
  /-- Never raised; safe. -/
  | none
  deriving DecidableEq, Repr

/-- The reasons for which a step can refuse. -/
inductive Refusal where
  /-- Raised by an arm of exec whose command has no meaning yet; safe. -/
  | notModelled (mnemonic : String)
  deriving DecidableEq, Repr

/-! ### Configuration images (02) -/

/-- A typed record of an image (R36, R40). -/
structure ImgRec where
  ty : Nat
  flags : Nat
  key : Nat
  body : List Byte
  deriving DecidableEq, Repr

/-- The configuration in force: the base, the mode overlay last applied, the mode overlay in force for each partition
(R672), the MANAGER overlay, the units that are fenced or narrowed (R53, R103, R104), and the fenced channels that the
interleave of device memory leaves out (R468, R469). -/
structure Cfg where
  base : List ImgRec
  mode : List ImgRec
  modeOf : List (Nat × Nat × List ImgRec)
  mgr : List ImgRec
  fences : List Nat
  leftOut : List Nat
  bistFences : List Nat
  narrowed : List (Nat × Nat)
  waysOff : Store Nat
  deriving DecidableEq, Repr

/-- The image loader (R48, R49, R61, R116): which operation runs (0 base load or a load not yet fetched, 1 overlay load,
2 revert, 3 microcode), the bytes fetched, the records read from them, whether the device was quiet when LOAD was
written, the scope of the switch, the units fenced while the image is applied, the partitions that a reset has brought
to a quiesce point (R95), and the error found in a microcode file. -/
structure Img where
  op : Nat
  bytes : List Byte
  recs : List ImgRec
  quietAtLoad : Bool
  scope : Nat
  newFences : List Nat
  resetParts : List Nat
  fault : Nat
  deriving DecidableEq, Repr

/-! ### Power, reset and boot (03, 04, 21) -/

/-- The straps as sampled under R80 (R655). -/
structure Straps where
  mgr : Bool
  feed : Nat
  slot : Nat
  deriving DecidableEq, Repr

/-- The power and reset state: regulators (R77), the pins PWR_GOOD, RESET_N, ALERT1_N and PE_PERST_N (R78, R580,
R658), a power-fail stop in progress (R83), whether the FABRIC phase has ended (R100, R101), the gated units (R91), the held partition resets (R95), and the last reading
of each junction sensor (R96). -/
structure Pwr where
  regulators : Bool
  good : Bool
  resetN : Bool
  stopping : Bool
  fabricEnded : Bool
  alert1 : Bool
  perst : Nat
  straps : Straps
  gatedArrays : List Nat
  gatedVecs : List Nat
  heldResets : List Nat
  temps : List (Nat × Nat)
  deriving DecidableEq, Repr

/-! ### The Axoft Link (05) -/

/-- A message of the link: the fields of its header slot (R133) and its data. -/
structure Msg where
  op : Nat
  tag : Nat
  part : Nat
  addr : Nat
  len : Nat
  arg : Nat
  poison : Bool
  data : List Byte
  deriving DecidableEq, Repr

/-- Credits of the four message classes (R135). -/
structure Credits where
  req : Nat
  snp : Nat
  rsp : Nat
  dat : Nat
  deriving DecidableEq, Repr

/-- The header of a flit (R127): SEQ, ACK, TYPE and the credits returned. -/
structure FlitHead where
  seq : Nat
  ack : Nat
  ty : Nat
  cr : Credits
  deriving DecidableEq, Repr

/-- A numbered flit held for replay (R129, R131): its SEQ, how often it was sent, the ACK and the credit returns it went
out with, and the message it carries. -/
structure HeldFlit where
  seq : Nat
  sends : Nat
  ack : Nat
  cr : Credits
  msg : Msg
  deriving DecidableEq, Repr

/-- A snoop of the device that has not been answered (R137, R141): its line and TAG (none while it waits for one), whether
it is SNP_INV, whether a SNP_INV is still owed behind a SNP_SHARE (R138, R146), and whether the answer has come before an
eviction that is in flight (R145). -/
structure Recall where
  line : Nat
  tag : Option Nat
  inv : Bool
  due : Bool
  answered : Bool
  deriving DecidableEq, Repr

/-- What an outstanding device request is for. -/
inductive ReqFor where
  | record (ring : Nat)
  | line (wait : Nat)
  | write (task : Nat)
  | atomic (wait : Nat) (lane : Nat)
  | copyRead (part : Nat) (toHost : Bool) (dst : Nat) (len : Nat)
  | leafRead (quire : Nat) (gtask : Nat) (gath : Nat) (off : Nat) (len : Nat)
  | rowRead (quire : Nat) (ctx : Nat) (row : Nat) (off : Nat)
  | svcRead (dst : Nat) (len : Nat)
  | fetch
  | evict
  deriving DecidableEq, Repr

/-- A device request to the host that has not been answered (R137). -/
structure OutReq where
  tag : Nat
  why : ReqFor
  task : Nat
  addr : Nat
  deriving DecidableEq, Repr

/-- A device request that waits for a TAG or for an earlier request to its line (R137, R152). -/
structure ReqWait where
  msg : Msg
  why : ReqFor
  task : Nat
  deriving DecidableEq, Repr

/-- How the host holds a device line (R139). -/
inductive Holder where
  | shared
  | exclusive
  deriving DecidableEq, Repr

/-- What a write into committed memory comes from: an ordinary write; the install of a job-wide or of a local epoch's
line, which moves data or remaps its granule in place (R452, R454); a MIRROR packet (R589); a FILL_DATA packet (R596). -/
inductive Origin where
  | ordinary
  | jobInstall (moves : Bool)
  | localInstall (moves : Bool)
  | live
  | fill
  deriving DecidableEq, Repr

/-- A host request or a device write that waits at a line's home until the host has answered a snoop of it, or of the
line that gives up its entry for it, and until earlier accesses to it have finished (R138, R140, R141); with a request, what
the ECC finds in its line; with a write, the epoch whose version it goes to. The demand accesses below the number `after`
came before it. -/
structure HomeWait where
  line : Nat
  after : Nat
  view : Option Nat
  ecc : Ecc
  msg : Option Msg
  write : List (Nat × Byte)
  poison : Bool
  origin : Origin
  task : Nat
  deriving DecidableEq, Repr

/-- A host line in the folio caches, as the snoop filter records it (R143). -/
structure HostLine where
  line : Nat
  part : Nat
  folios : Nat
  poison : Bool
  data : List Byte
  deriving DecidableEq, Repr

/-- The link: flit sequence numbers, held flits, messages waiting for credit, the peer's credits, the credits that the
companion processor still holds with the device and those to be returned to it, the last flit sent that takes no number,
the poisoned messages sent, the requests both ways, host requests that wait behind a host write (R152), the host-holder
directory in grant order, the snoop filter and the rings whose EVT is deferred (R159). -/
structure Axl where
  seqTx : Nat
  seqRx : Nat
  ack : Nat
  held : List HeldFlit
  wait : List Msg
  crReq : Nat
  crSnp : Nat
  crRsp : Nat
  crDat : Nat
  rx : Credits
  owed : Credits
  last : Option FlitHead
  poisonTx : Nat
  nak : Option Nat
  dupFlits : Nat
  reqWait : List ReqWait
  reqs : List OutReq
  retired : List Nat
  dir : List (Nat × Holder)
  recalls : List Recall
  home : List HomeWait
  inq : List (Msg × Ecc)
  filter : List HostLine
  evtBusy : List Nat
  evtDue : List Nat
  deriving DecidableEq, Repr

/-! ### Rings and tasks (06) -/

/-- What the device keeps of a ring beside its registers: the phase of the current pass (R155), the records held for
a full ring (R156, R160), the descriptor read from slot HEAD, how its tally wait stands (0 waits, 1 released, 2 FAULTED) and since when it could
start (R188, R190). -/
structure Ring where
  phase : Bool
  held : List (List Byte)
  desc : Option (List Byte)
  wait : Nat
  since : Nat
  deriving DecidableEq, Repr

/-- A ring with nothing in it, before its first pass. -/
def Ring.empty : Ring := { phase := true, held := [], desc := none, wait := 0, since := 0 }

/-- A started task: its descriptor, the epoch in which it runs as a proof (R447, R449), the gathering to be placed next, whether its work has ended, its status and fault
kind (R194), the kernel header as the dispatcher read it (R252), STEP and
ATTEMPT of its start (R497), and the three results of MEMTEST. Tasks stand in the order
in which they started (R675). -/
structure Task where
  id : Nat
  part : Nat
  queue : Nat
  desc : List Byte
  epoch : Option Nat
  next : Nat
  ended : Bool
  status : Nat
  fkind : Nat
  header : List Byte
  step : Nat
  attempt : Nat
  res0 : Nat
  res1 : Nat
  res2 : Nat
  deriving DecidableEq, Repr

/-! ### Threads, caravans, gatherings and quires (07) -/

/-- The state of a thread (R216), with what a waiting thread waits for. -/
inductive Thread where
  | active
  | waitMem (id : Nat)
  | waitArrive (counter : Nat) (target : Nat)
  | waitTally (tally : Nat) (target : Nat) (dst : Nat)
  | waitBarC (mask : Nat)
  | waitBarG (bar : Nat)
  | waitColl (pc : Nat) (mask : Nat)
  | exited
  deriving DecidableEq, Repr

/-- A caravan in a slot of a quire: what it belongs to, its threads' program counters and states, through how many issues of
the caravan for other paths each thread has stayed issuable (R226), for how many tcycles the caravan has been issuable without
issuing (R225) and each thread has waited for an issue (R227), and its registers.
General registers have key register * 32 + lane, predicates key predicate * 32 + lane. -/
structure Caravan where
  slot : Nat
  task : Nat
  gath : Nat
  index : Nat
  prio : Nat
  stopping : Bool
  pcs : Store Nat
  thr : Store Thread
  passed : Store Nat
  age : Nat
  waits : Store Nat
  g : Store Word
  u : Store Word
  p : Store Bool
  deriving DecidableEq, Repr

/-- One line of a demand access that has not arrived: a device line by key, or a host line by address. -/
structure WantLine where
  host : Bool
  line : Nat
  deriving DecidableEq, Repr

/-- A demand access that waits for memory (R228, R230, R276): the caravan; the lanes that execute with the address each
accesses; whether a result is returned; for an atomic its operation with the signed flag, each lane's operand and compare
value, and the old values that the host has returned; the bytes of host lines that have arrived; the lines still to
come. Its width is in bytes. -/
structure MemWait where
  id : Nat
  quire : Nat
  slot : Nat
  lanes : List (Nat × Nat)
  host : Bool
  dst : Nat
  width : Nat
  sext : Bool
  ret : Bool
  atom : Option (Nat × Bool)
  vals : List (Nat × Nat × Nat)
  old : List (Nat × Nat)
  got : List (Nat × Byte)
  want : List WantLine
  poison : Bool
  deriving DecidableEq, Repr

/-- A waiting BAR.C, BAR.G or collective instance with its timer (R244): the kind code of the stall record, the slot
and address of the first arrival, its mask, the time of the first arrival, and whether the watchdog has fired into
a stall record. -/
structure Stall where
  kind : Nat
  slot : Nat
  task : Nat
  gath : Nat
  bar : Nat
  pc : Nat
  mask : Nat
  since : Nat
  fired : Option Nat
  deriving DecidableEq, Repr

/-- A gathering resident on a quire (R212, R214): the task, its number, its caravans, the physical leaf pages it holds
in order and the register bytes per lane. -/
structure Gathering where
  task : Nat
  num : Nat
  slots : List Nat
  pages : List Nat
  regBytes : Nat
  deriving DecidableEq, Repr

/-! ### The optical fabric (17) -/

/-- A windowed packet that has not been acknowledged (R543, R544, R547), with the port that carried it, its resends and
the task it belongs to (0: none). -/
structure E2E where
  pkt : Pkt
  port : Option Nat
  resends : Nat
  task : Nat
  deriving DecidableEq, Repr

/-- A read or gather request that has not been answered (R548): its tag, the partition and the offset the answer goes
to, and whether it is a gather. -/
structure FabReq where
  tag : Nat
  pkt : Pkt
  port : Option Nat
  resends : Nat
  task : Nat
  part : Nat
  dst : Nat
  gather : Bool
  deriving DecidableEq, Repr

/-- The duplicate window of one source at a partition (R545, R546): its incarnation, the highest SEQ accepted, and the map
of the SEQs below it (bit i: SEQ high - i was accepted). -/
structure Window where
  part : Nat
  bySlot : Bool
  src : Nat
  incarnation : Nat
  high : Nat
  map : Nat
  deriving DecidableEq, Repr

/-- A packet held on a port's link until the peer has accepted it: SEQ of its last flit, its flits, how often it was
sent and when first. -/
structure HeldPkt where
  seq : Nat
  flits : Nat
  sends : Nat
  pkt : Pkt
  deriving DecidableEq, Repr

/-- The link of one port (R530, R531): sequence numbers, packets held and waiting, credits by class and lane, the NAK
to send, the turn of the classes (R549), and the JOB_ID that the peer has told (R569). -/
structure Port where
  seqTx : Nat
  seqRx : Nat
  ack : Nat
  held : List HeldPkt
  wait : List Pkt
  credits : List Nat
  nak : Option Nat
  tc0Run : Nat
  turn : Nat
  left : Nat
  peer : Option Nat
  deriving DecidableEq, Repr

/-- A port right after training: 256 flits of buffer in each class and lane at the peer (R541). -/
def Port.fresh : Port :=
  { seqTx := 0, seqRx := 0, ack := 65535, held := [], wait := [], credits := List.replicate 8 256, nak := none,
    tc0Run := 0, turn := 1, left := 0, peer := none }

/-- A packet held at its destination until an epoch or attempt opens (R462, R512, R542). -/
structure HoldPkt where
  port : Nat
  pkt : Pkt
  deriving DecidableEq, Repr

/-- The fabric: end-to-end windows both ways, requests, packets without a port, packets beyond the 1,024 in flight,
packets to this device itself, the ports and the hold areas. -/
structure Fab where
  seqNo : List (Bool × Nat × Nat)
  e2e : List E2E
  reqs : List FabReq
  blocked : List (Pkt × Nat)
  unrouted : List Pkt
  own : List Pkt
  wins : List Window
  ports : Store Port
  hold : List HoldPkt
  nextTag : Nat
  deriving DecidableEq, Repr

/-! ### The units of a quire (09, 10, 12, 13) -/

/-- An arrival whose caravan still has leaf accesses to be performed (R304): the counter, the addend and the
instructions it waits for. -/
structure LateArrive where
  counter : Nat
  addend : Nat
  waits : List Nat
  deriving DecidableEq, Repr

/-- A store, an atomic or a load of a caravan whose acceptance a FENCE waits for (R278): the lanes, the space (0 leaf,
1 device, 2 host) and the number under which its requests and writes run. -/
structure Access where
  slot : Nat
  lanes : Nat
  space : Nat
  id : Nat
  deriving DecidableEq, Repr

/-- A FENCE that still holds its threads' memory accesses (R278): the lanes, and the accesses it waits for. -/
structure FenceHold where
  slot : Nat
  lanes : Nat
  ids : List Nat
  deriving DecidableEq, Repr

/-- An outstanding copy (R305 to R310): its number, its task and gathering, the caravan that issued it, and the arrival
counter with the quire that holds it. -/
structure Copy where
  id : Nat
  task : Nat
  gath : Nat
  slot : Nat
  home : Nat
  counter : Nat
  deriving DecidableEq, Repr

/-- A stream context that is active (1) or draining (2) (R311 to R322): its owner, its descriptor, the next row, the
release count, the rows complete beyond the counter, the rows dropped, the rows that a program waits for, the rows whose
host data came as poison, the rows on their way with the numbers they run under, and whether it stops once the rows filled
are written (R322). -/
structure Stream where
  state : Nat
  task : Nat
  gath : Nat
  slot : Nat
  mem : Nat
  host : Bool
  write : Bool
  units : Nat
  rows : Nat
  stride : Nat
  leaf : Nat
  logSlots : Nat
  next : Nat
  released : Nat
  ahead : List Nat
  dropped : List Nat
  demand : List Nat
  bad : List Nat
  flight : List (Nat × Nat)
  closing : Bool
  deriving DecidableEq, Repr

/-- A parameter gather, held or running (R431 to R436). -/
structure Gather where
  id : Nat
  task : Nat
  gath : Nat
  slot : Nat
  counter : Nat
  first : Nat
  tiles : Nat
  pos : Nat
  dst : Nat
  dir : Nat
  started : Bool
  deriving DecidableEq, Repr

/-- A tile descriptor as read (R331). -/
structure Tile where
  aOff : Nat
  bOff : Nat
  saOff : Nat
  saPitch : Nat
  sbOff : Nat
  sbPitch : Nat
  lda : Nat
  ldb : Nat
  m : Nat
  n : Nat
  k : Nat
  logical : Bool
  fmtA : Nat
  fmtB : Nat
  wset : Nat
  product : Nat
  cplx : Bool
  rnd : Nat
  srBase : Nat
  deriving DecidableEq, Repr

/-- The instructions of the matrix queue. -/
inductive MKind where
  | mtileF
  | mtileB
  | mtileX
  | mload
  | mloadT
  | mstore
  | gsend
  deriving DecidableEq, Repr

/-- An instruction in the matrix queue: the caravan and mask it issued for, its descriptor, tile and ACC bit, the key of
its stochastic rounding, the loads and passes started so far, and for GSEND its 128-bit descriptor with the step and attempt of its tag. -/
structure MOp where
  id : Nat
  slot : Nat
  task : Nat
  gath : Nat
  cmask : Nat
  kind : MKind
  tile : Nat
  acc : Bool
  desc : Tile
  key : List Word
  loads : Nat
  passes : Nat
  gdesc : Nat
  deriving DecidableEq, Repr

/-- A weight set (R326, R330): the format, whether it is half of an FP32 load (1) or of a complex load (2), the codes by
row * 32 + column, and the FP4 scales by block * 32 + column. -/
structure WSet where
  fmt : Nat
  pair : Nat
  w : Store Nat
  scale : Store Nat
  deriving DecidableEq, Repr

/-- A weight set of zeros in BF16 (R330). -/
def WSet.zero : WSet := { fmt := 1, pair := 0, w := [], scale := [] }

/-- A pass whose result its tiles do not hold yet (R354): the tiles, and the elements (tile * 256 + row * 32 + column)
with their values. -/
structure Pass where
  id : Nat
  tiles : List Nat
  out : List (Nat × Word)
  deriving DecidableEq, Repr

/-- The matrix unit (10): weight sets, accumulators, queue, weight loads under way, passes under way, the set that
the last pass read, and the leaf rows that loads started since then have read, by bank (R355). -/
structure Mtx where
  set0 : WSet
  set1 : WSet
  acc : Store Word
  queue : List MOp
  loading : List (Nat × Nat × WSet)
  passes : List Pass
  last : Option Nat
  side : List (Nat × Nat)
  deriving DecidableEq, Repr

def Mtx.idle : Mtx :=
  { set0 := WSet.zero, set1 := WSet.zero, acc := [], queue := [], loading := [], passes := [], last := none, side := [] }

/-- The instructions of the vector queue. -/
inductive VKind where
  | vop
  | vcompress
  | vexpand
  | vred
  | vld
  | vst
  | dmask
  deriving DecidableEq, Repr

/-- An instruction in the vector queue (R393 to R400): references, counts, scalars, keys and index bases as read at
issue; dreg is the uniform register DST names. -/
structure VOp where
  id : Nat
  slot : Nat
  task : Nat
  gath : Nat
  cmask : Nat
  kind : VKind
  n : Nat
  func : Nat
  width : Nat
  rnd : Nat
  d : Nat
  a : Nat
  b : Nat
  dreg : Nat
  aval : Word
  bval : Word
  dval : Word
  base : Word
  key : List Word
  deriving DecidableEq, Repr

/-- A vector instruction that has started (R401 to R403): what it writes at its end, into the engine, into uniform
registers and into a leaf. -/
structure VRun where
  op : VOp
  out : List (Nat × Byte)
  uni : List (Nat × Word)
  leaf : List Byte
  deriving DecidableEq, Repr

/-- The vector engine (12): registers at bytes 0 to 8,191 and the operand cache at 8,192 to 73,727; the queue; the
instructions that have started. -/
structure Vec where
  mem : Store Byte
  queue : List VOp
  run : List VRun
  deriving DecidableEq, Repr

def Vec.idle : Vec := { mem := [], queue := [], run := [] }

/-- One quire: its caravans in slot order, the slot issued last (R225), its gatherings, its leaf by physical byte address (R292), its waiting
barrier and collective instances, its arrival counters, the MSTOREs and VSTs that a barrier puts before the later accesses of
its participants (R324), and its units. -/
structure Quire where
  caravans : List Caravan
  lastSlot : Nat
  gaths : List Gathering
  leaf : Store Byte
  stalls : List Stall
  arr : Store Nat
  late : List LateArrive
  accs : List Access
  fences : List FenceHold
  bars : List FenceHold
  copies : List Copy
  streams : Store Stream
  gathers : List Gather
  mtx : Mtx
  vec : Vec
  deriving DecidableEq, Repr

/-- An empty quire: R52 and R92 leave every quire so. The round-robin of R225 begins at slot 0. -/
def Quire.idle : Quire :=
  { caravans := [], lastSlot := 63, gaths := [], leaf := [], stalls := [], arr := [], late := [], accs := [], fences := [],
    bars := [], copies := [], streams := [], gathers := [], mtx := Mtx.idle, vec := Vec.idle }

/-! ### Versions, frozen images and mirrors (14, 15, 18) -/

/-- An entry in state PROOF of a version table: the partition, the epoch, the granule it versions, the mask of the lines
the epoch has written, the poisoned lines, the granule's bytes by offset, and the committed bytes that were copied (R450,
R454, R485). -/
structure Version where
  part : Nat
  epoch : Nat
  gran : Nat
  mask : Nat
  poison : Nat
  data : Store Byte
  copied : Store Byte
  deriving DecidableEq, Repr

/-- A granule's frozen copy (R485, R488). -/
structure FrozenGran where
  gran : Nat
  data : Store Byte
  deriving DecidableEq, Repr

/-- The frozen image of a partition, with what the snapshot header records of it (R487, R604). -/
structure Frozen where
  part : Nat
  step : Nat
  exp : Nat
  lsMode : Nat
  clean : Nat
  stamp : Nat
  copies : List FrozenGran
  deriving DecidableEq, Repr

/-- The mirror traffic of one granule in one epoch to one rank (R589): the lines of the packet not yet acknowledged and
the tasks whose writes wait for it (R590), and the lines written since, with their tasks. -/
structure Mirror where
  gran : Nat
  epoch : Nat
  dest : Nat
  sent : Nat
  tasks : List Nat
  next : Nat
  later : List Nat
  deriving DecidableEq, Repr

/-- A device line in the folio caches, as its base's directory records it (R455, R473): the line's key, the epoch whose
version of it the caches hold (none: committed memory), and the folios that hold it. -/
structure FolioLine where
  key : Nat
  view : Option Nat
  folios : Nat
  deriving DecidableEq, Repr

/-- The dune bases beside memory itself: versions, the epochs whose commit or discard is not complete at every base
(partition, epoch; R454), frozen images, mirrors, the fresh masks of a spare by granule (R596), and the folio directory
in grant order (R473). -/
structure Dune where
  versions : List Version
  closing : List (Nat × Nat)
  frozen : List Frozen
  mirrors : List Mirror
  fresh : Store Nat
  folios : List FolioLine
  deriving DecidableEq, Repr

/-- A PROOF.COMMIT of a job-wide epoch whose decision is not installed yet (R443): its caravan's threads wait for it as for a
collective that has not issued. -/
structure CommitWait where
  quire : Nat
  slot : Nat
  task : Nat
  pc : Nat
  mask : Nat
  epoch : Nat
  deriving DecidableEq, Repr

/-- What a partition keeps of epochs beside its registers (14): the partitions whose first job-wide epoch has opened
(R677), and the PROOF.COMMITs that wait for a decision. -/
structure Proof where
  jobOpened : List Nat
  commits : List CommitWait
  deriving DecidableEq, Repr

/-! ### Security (19) -/

/-- An entry of the signer table (R614, R616). -/
structure Signer where
  id : Nat
  kinds : Nat
  pubkey : List Byte
  deriving DecidableEq, Repr

/-- The security root: the signer table, how often a key pair was drawn for each partition (R625), the signer record being loaded, the count of log entries made, and the quote
being taken or waiting: its source (0 host, 1 MCTP), nonce and mask (R622). -/
structure Sec where
  signers : List Signer
  keys : Store Nat
  loading : Bool
  logSeq : Nat
  quote : Option (Nat × List Byte × Nat)
  quoteNext : Option (Nat × List Byte × Nat)
  captured : List Byte
  deriving DecidableEq, Repr

/-! ### Records (18) -/

/-- A fault record in the MCTP outbox (R577, R579). -/
structure OutRec where
  seq : Nat
  severity : Nat
  bytes : List Byte
  deriving DecidableEq, Repr

/-- Fault records: the count made since cold reset, the outbox in order, the answer to the last MCTP command, whether the
host event ring has been enabled since boot began (R120), and whether the boot log has been copied (R121). -/
structure Recs where
  made : Nat
  outbox : List OutRec
  answer : List Byte
  ringSeen : Bool
  logCopied : Bool
  deriving DecidableEq, Repr

/-! ### Gradient reduction (16) -/

/-- A reduction packet that the send engine keeps until it is answered (R497, R500, R513): its tag, its 4,160 bytes, the
owner, where SIGNAL goes, and whether the last answer was EARLY. -/
structure RedSend where
  part : Nat
  step : Nat
  attempt : Nat
  tile : Nat
  mb : Nat
  bytes : List Byte
  dest : Nat
  quire : Nat
  counter : Nat
  signal : Bool
  deriving DecidableEq, Repr

/-- A tile's tree in an attempt (R508): its slot, the ROOT_TALLY of the packet that completed its last leaf so far, how
far it is (0 leaves arrive, 1 evaluated, 2 root written, 3 a check failed, 4 the root cannot be written), the number under
which its root data is written, and the root's header. -/
structure Tree where
  part : Nat
  step : Nat
  attempt : Nat
  tile : Nat
  slot : Nat
  tally : Nat
  stage : Nat
  id : Nat
  head : List Byte
  deriving DecidableEq, Repr

/-- What a device keeps of an attempt (R514 to R519, R560): the packets sent, the trees, the drop set, the gate tally's value
at the opening, the partitions whose GSEND with FINAL has issued with the tag of their task, whether RANK_DONE has been sent,
SENDS_CLOSED received and OWNER_DONE sent, the roots written, whether an area fault occurred, and whether a first INIT
or, on a spare, a first DECISION is still to come. -/
structure Red where
  sends : List RedSend
  trees : List Tree
  drop : List Nat
  gate : Nat
  finals : List (Nat × Nat × Nat)
  rankDone : Bool
  closed : Bool
  ownerDone : Bool
  area : Bool
  init : Bool
  spare : Bool
  deriving DecidableEq, Repr

def Red.init0 : Red :=
  { sends := [], trees := [], drop := [], gate := 0, finals := [], rankDone := false, closed := false,
    ownerDone := false, area := false, init := true, spare := true }

/-! ### Services (04) -/

/-- A MATMUL or a board collective that runs: its task, its operands as far as they have come (operand * 2^48 + offset; a
collective's by slot), the operands with poison, the chunks of other members received (slot, offset), and whether the own
operand has been sent. -/
structure Svc where
  task : Nat
  buf : Store Byte
  bad : List Nat
  got : List (Nat × Nat)
  sent : Bool
  deriving DecidableEq, Repr

/-! ### The manager hierarchy (17, 18) -/

/-- What the job manager keeps (R515 to R520, R555 to R563, R581 to R584, R592): JOINs that came before its role, the
ranks joined with their incarnations, those filling and those filled, whether INIT or HALT has been sent, STEP, ATTEMPT,
EXP and CLEAN of the current attempt, the epoch open, the drop set, the ranks failed since, the UNREACHABLE records of the
attempt (named rank, reporter), the reports of the attempt, the deadline and SENDS_CLOSED, the ranks' consecutive LATE
decisions without RANK_DONE, the last broadcast, and the board managers aligned. -/
structure Mgr where
  early : List Pkt
  joined : List (Nat × Nat)
  filling : List (Nat × Nat)
  filled : List (Nat × Nat)
  started : Bool
  halted : Bool
  step : Nat
  attempt : Nat
  exp : Nat
  clean : Nat
  epoch : Nat
  drop : List Nat
  failed : List Nat
  unreach : List (Nat × Nat)
  ranksDone : List Nat
  ownersDone : List (Nat × Nat)
  armed : Bool
  closed : Bool
  silent : Store Nat
  last : Option Pkt
  aligned : List Nat
  failures : Nat
  refused : Nat
  deriving DecidableEq, Repr

def Mgr.init : Mgr :=
  { early := [], joined := [], filling := [], filled := [], started := false, halted := false, step := 0, attempt := 0,
    exp := 0, clean := 0, epoch := 0, drop := [], failed := [], unreach := [], ranksDone := [], ownersDone := [],
    armed := false, closed := false, silent := [], last := none, aligned := [], failures := 0, refused := 0 }

/-- One completed exchange of a period (R565): the peer, the exchange number, the round trip and twice the offset. -/
structure Exchange where
  peer : Nat
  num : Nat
  rtt : Int
  twice : Int
  deriving DecidableEq, Repr

/-- The job time base: the manager's period count and exchanges, and on every device when the last PING of its aligning
manager came and the last two measurements of the offset with the time of each and the period of the last (R564 to R567). -/
structure Align where
  period : Nat
  exchanges : List Exchange
  seen : Nat
  last : Int
  lastAt : Nat
  prev : Int
  prevAt : Nat
  lastPeriod : Nat
  deriving DecidableEq, Repr

def Align.init : Align :=
  { period := 0, exchanges := [], seen := 0, last := 0, lastAt := 0, prev := 0, prevAt := 0, lastPeriod := 0 }

/-- What fills and snapshots keep beside their registers (18): the granules that the bulk stream has still to read, the
incarnation under which the spare answers, and the step for which the snapshot engine is armed. -/
structure Resil where
  bulk : List Nat
  spareInc : Nat
  armed : Nat
  deriving DecidableEq, Repr

/-- What monitoring keeps beside its registers (20): whether the FAULT cause of R645 holds, the slot that each quire sampled
last plus 1 (R632), and the hang snapshots requested, in order of arrival (0 the driver's, p + 1 partition p's; R638). -/
structure Mon where
  fault : Bool
  sampled : Store Nat
  hang : List Nat
  deriving DecidableEq, Repr


/-- An instruction that has issued: the caravan, the lanes of its path, and the unit of which a quire has one (R283): 0 none,
1 the MEM and ATOM unit, 2 the tally port. -/
structure Issued where
  quire : Nat
  slot : Nat
  lanes : Nat
  unit : Nat
  deriving DecidableEq, Repr

/-- What the tcycle under way has seen, for the rules about events of one tcycle: what has been added to each tally (R199), the
W1C bits that hardware has set, by register and bit (R203), the groups of rings that have started a descriptor (R189, R191),
the instructions that have issued (R224, R676), and the tasks that a program fault has ended, with the quire and the slot of the
instruction (R288). The commands taken between two ticks arrive in one tcycle (log 117). -/
structure Tcycle where
  adds : Store Nat
  raised : List (Nat × Nat)
  started : List Nat
  issued : List Issued
  faults : List (Nat × Nat × Nat)
  deriving DecidableEq, Repr

def Tcycle.new : Tcycle := { adds := [], raised := [], started := [], issued := [], faults := [] }

/-! ### The whole state -/

/-- The engines: the stamp counter (PWR_STAMP), the count of free values taken, the number for the next task, access,
copy or row, the tasks that accesses, copies and rows belong to (owners), the SERVICE packets that no running service has
taken (inbox), and the parts above. -/
structure Eng where
  stamp : DWord
  free : Nat
  cfg : Cfg
  img : Img
  pwr : Pwr
  axl : Axl
  rings : Store Ring
  tasks : List Task
  nextTask : Nat
  rr : Store Nat
  quires : Store Quire
  memWaits : List MemWait
  owners : Store Nat
  poison : List Nat
  dune : Dune
  proof : Proof
  fab : Fab
  red : Red
  mgr : Mgr
  align : Align
  resil : Resil
  svcs : List Svc
  inbox : List Pkt
  recs : Recs
  sec : Sec
  mon : Mon
  tcyc : Tcycle
  deriving DecidableEq, Repr

/-- The device: its registers by offset, its memory by key, and its engines. -/
structure Dev where
  regs : Store DWord
  mem : List Host.Cell
  eng : Eng
  deriving DecidableEq, Repr

/-- The block: the commands that wait, first in first out, and the device. -/
structure State where
  pending : List Instr
  d : Dev
  deriving DecidableEq, Repr

/-! ### Reset -/

/-- DEFAULT as the mask ROM holds it (R73): partition 0 owns every signature and channel (record 0x10), no pools (0x30),
no encryption, debug visible, BY_SLOT packets accepted (0x60). -/
def defaultBase : List ImgRec := [
  { ty := 0x10, flags := 0, key := 0, body := List.replicate 80 0xFF ++ List.replicate 8 0 },
  { ty := 0x30, flags := 0, key := 0, body := List.replicate 16 0 },
  { ty := 0x60, flags := 0, key := 0, body := 6 :: List.replicate 7 0 }]

/-- The configuration of DEFAULT, with the fences and narrowings that self-test made (R73, R92). -/
def Cfg.default (bist : List Nat) (narrowed : List (Nat × Nat)) (ways : Store Nat) : Cfg :=
  { base := defaultBase, mode := [], modeOf := [], mgr := [], fences := bist, leftOut := [], bistFences := bist,
    narrowed := narrowed, waysOff := ways }

/-- The credits that the device advertises in training (R135). -/
def Credits.own : Credits := { req := 1024, snp := 512, rsp := 2048, dat := 2048 }
def Credits.zero : Credits := { req := 0, snp := 0, rsp := 0, dat := 0 }

/-- A link that has not trained: no credits, nothing held (R124, R135). -/
def Axl.init : Axl :=
  { seqTx := 0, seqRx := 0, ack := 4095, held := [], wait := [], crReq := 0, crSnp := 0, crRsp := 0, crDat := 0,
    rx := Credits.zero, owed := Credits.zero, last := none, poisonTx := 0, nak := none, dupFlits := 0, reqWait := [],
    reqs := [], retired := [], dir := [], recalls := [], home := [], inq := [], filter := [], evtBusy := [], evtDue := [] }

def Fab.init : Fab :=
  { seqNo := [], e2e := [], reqs := [], blocked := [], unrouted := [], own := [], wins := [], ports := [], hold := [],
    nextTag := 0 }

def Pwr.init : Pwr :=
  { regulators := true, good := true, resetN := false, stopping := false, fabricEnded := false, alert1 := false,
    perst := 0, straps := { mgr := false, feed := 0, slot := 0 }, gatedArrays := [], gatedVecs := [],
    heldResets := [], temps := [] }

def Img.init : Img :=
  { op := 0, bytes := [], recs := [], quietAtLoad := false, scope := 0, newFences := [], resetParts := [],
    fault := 0 }

/-- The engines after a cold reset. -/
def Eng.init : Eng :=
  { stamp := 0, free := 0, cfg := Cfg.default [] [] [], img := Img.init, pwr := Pwr.init, axl := Axl.init, rings := [],
    tasks := [], nextTask := 1, rr := [], quires := [], memWaits := [], owners := [], poison := []
    dune := { versions := [], closing := [], frozen := [], mirrors := [], fresh := [], folios := [] }
    proof := { jobOpened := [], commits := [] }
    fab := Fab.init
    red := Red.init0
    mgr := Mgr.init
    align := Align.init
    resil := { bulk := [], spareInc := 0, armed := 0 }
    svcs := []
    inbox := []
    recs := { made := 0, outbox := [], answer := [], ringSeen := false, logCopied := false }
    sec := { signers := [], keys := [], loading := false, logSeq := 0, quote := none, quoteNext := none, captured := [] }
    mon := { fault := false, sampled := [], hang := [] }
    tcyc := Tcycle.new }

/-- The block right after a cold reset: the regulators on, PWR_GOOD high, RESET_N still low (R77 to R79, R92), every
register at its reset value, nothing in memory, nothing waiting. -/
def State.reset : State := { pending := [], d := { regs := [], mem := [], eng := Eng.init } }

end Sys2Proof.Machine
end

