-- ==== Sys2Proof/Machine/Ops.lean ====
section
/-! DEFINITION. The named operations over the state: what a command may do to the registers, to device memory and to
the engines is written as an Act, a list of primitive changes, and Act.run carries it out. The bit-field and byte-order
helpers stand here as well. -/

namespace Sys2Proof.Machine

/-! ### Bits and bytes -/

/-- The field of width wd at bit lo of a number. -/
def field (v lo wd : Nat) : Nat := (v >>> lo) % 2 ^ wd

/-- Bit i of a number. -/
def bit (v i : Nat) : Bool := v.testBit i

/-- A number whose bit is a flag. -/
def bv (b : Bool) : Nat := if b then 1 else 0

/-- A 64-bit word with the field of width wd at bit lo replaced. -/
def putField (w : DWord) (lo wd x : Nat) : DWord :=
  let m := BitVec.ofNat 64 (2 ^ wd - 1) <<< lo
  (w &&& ~~~m) ||| ((BitVec.ofNat 64 x <<< lo) &&& m)

/-- Little-endian bytes as a number (00: all multi-byte fields are little-endian). -/
def leNat : List Byte → Nat
  | [] => 0
  | b :: t => b.toNat + 256 * leNat t

/-- The n little-endian bytes of a number. -/
def leBytes : Nat → Nat → List Byte
  | 0, _ => []
  | n + 1, v => BitVec.ofNat 8 v :: leBytes n (v / 256)

/-- The number held little-endian in n bytes of a byte string from an offset on; bytes past the end count as 0. -/
def leAt (bs : List Byte) (off n : Nat) : Nat := leNat ((bs.drop off).take n)

/-- A byte string cut or filled with zeros to a length. -/
def fit (n : Nat) (bs : List Byte) : List Byte := (bs ++ List.replicate n 0).take n

/-- All the numbers below n that pass a test. -/
def upTo (n : Nat) (p : Nat → Bool) : List Nat := (List.range n).filter p

/-- How many bits of a number below n are set. -/
def popBits (v n : Nat) : Nat := (upTo n (bit v)).length

/-- The signed value of the low w bits. -/
def signed (w v : Nat) : Int := (BitVec.ofNat w v).toInt

/-- Division rounded up. -/
def ceilDiv (a b : Nat) : Nat := (a + b - 1) / b

/-! ### Registers -/

/-- Whether an offset is an instance of a register row: each index below its count and nothing left over. -/
def instOf : List (Nat × Nat) → Nat → Bool
  | [], r => r == 0
  | (s, n) :: t, r => decide (r / s < n) && instOf t (r % s)

/-- The row of the register table that begins at an offset. -/
def regAt (off : Nat) : Option RegDef :=
  regTable.find? fun r => decide (r.base ≤ off) && instOf r.dims (off - r.base)

/-- What a register holds when nothing lists it: the Reset column (R6). Host window 0 of partition 0 is open over the
whole host address space in DEFAULT (R151). -/
def resetOf (off : Nat) : DWord :=
  if off = AXL_HWIN_BASE 0 then 3
  else if off = AXL_HWIN_LIMIT 0 then 0xFFFFFFFFFFFFF000
  else match regAt off with
    | some r => BitVec.ofNat 64 r.reset
    | none => 0

/-- The content of the register at an offset. -/
def Dev.reg (d : Dev) (off : Nat) : DWord := Store.get resetOf off d.regs

/-- The value of a register field. -/
def Dev.fld (d : Dev) (f : Fld) : Nat := field (d.reg f.reg).toNat f.lo f.wd

/-- A one-bit field as a flag. -/
def Dev.flag (d : Dev) (f : Fld) : Bool := d.fld f != 0

/-! ### Device memory -/

/-- The key of byte o of partition p's memory. -/
def memKey (p o : Nat) : Nat := p * 2 ^ 40 + o

/-- What a byte of device memory that nothing lists reads as (R51, R107; log 11). -/
def memDflt : Nat → Byte := fun _ => 0

/-- One byte of device memory. -/
def Dev.byte (d : Dev) (key : Nat) : Byte := Store.get memDflt key d.mem

/-- n bytes of device memory. -/
def Dev.bytes (d : Dev) (key n : Nat) : List Byte := (List.range n).map fun i => d.byte (key + i)

/-! ### Acts -/

/-- A change of the device: set a register, put the registers of a range of offsets back to their reset values, set a
byte of device memory, zero a range of device memory, change the engines, one change after another, or a change
chosen from the state reached so far. -/
inductive Act where
  | skip
  | reg (off : Nat) (v : DWord)
  | forget (lo hi : Nat)
  | byte (key : Nat) (b : Byte)
  | zero (lo hi : Nat)
  | eng (f : Eng → Eng)
  | seq (a b : Act)
  | dyn (f : Dev → Act)

/-- Carry a change out. -/
def Act.run : Act → Dev → Dev
  | .skip, d => d
  | .reg off v, d => { d with regs := Store.put resetOf off v d.regs }
  | .forget lo hi, d => { d with regs := Store.drop (fun k => decide (lo ≤ k) && decide (k < hi)) d.regs }
  | .byte key b, d => { d with mem := Store.put memDflt key b d.mem }
  | .zero lo hi, d => { d with mem := Store.drop (fun k => decide (lo ≤ k) && decide (k < hi)) d.mem }
  | .eng f, d => { d with eng := f d.eng }
  | .seq a b, d => b.run (a.run d)
  | .dyn f, d => (f d).run d

/-- Several changes in order. -/
def Act.all : List Act → Act
  | [] => .skip
  | a :: t => .seq a (Act.all t)

/-- A change made under a condition. -/
def Act.when (b : Bool) (a : Act) : Act := if b then a else .skip

/-- One change for each element of a list, in order. -/
def Act.each {α : Type} (l : List α) (f : α → Act) : Act := Act.all (l.map f)

/-- Set a register field. -/
def Act.set (f : Fld) (v : Nat) : Act :=
  .dyn fun d => .reg f.reg (putField (d.reg f.reg) f.lo f.wd v)

/-- Set a register field to a flag. -/
def Act.setB (f : Fld) (b : Bool) : Act := Act.set f (bv b)

/-- Add to a counter that wraps. -/
def Act.add (f : Fld) (n : Nat) : Act := .dyn fun d => Act.set f (d.fld f + n)

/-- Add to a counter that holds at its maximum. -/
def Act.count (f : Fld) (n : Nat) : Act :=
  .dyn fun d => Act.set f (min (d.fld f + n) (2 ^ f.wd - 1))

/-- Write a byte string to device memory. -/
def Act.bytes (key : Nat) (bs : List Byte) : Act :=
  Act.each (List.range bs.length) fun i => .byte (key + i) (bs.getD i 0)

/-- Take the next free value: a value the spec leaves open, which no proof can see. -/
def Act.free (k : DWord → Act) : Act :=
  .dyn fun d => .seq (.eng fun e => { e with free := e.free + 1 }) (k (Config.freeValue d.eng.free))

end Sys2Proof.Machine
end

