-- ==== Sys2Proof/Machine/Layout.lean ====
section
/-! DEFINITION. What the configuration in force says (02, 06, 15): the partitions and their signatures, channels,
queues and tallies, the roles of the quires, the fences, the layout of device memory, the rank table. -/

namespace Sys2Proof.Machine

/-! ### Record types (R40) -/

def rtPartition : Nat := 0x10
def rtQuireRole : Nat := 0x11
def rtSigMode : Nat := 0x12
def rtQueues : Nat := 0x20
def rtTallies : Nat := 0x21
def rtPools : Nat := 0x30
def rtRanks : Nat := 0x40
def rtRoutes : Nat := 0x41
def rtFabric : Nat := 0x42
def rtFence : Nat := 0x50
def rtSecurity : Nat := 0x60
def rtTraining : Nat := 0x70
def rtManager : Nat := 0x80
def rtRegInit : Nat := 0x90

/-- The KEY that names every signature. -/
def allKey : Nat := 2 ^ 64 - 1

/-- The record of a type and key, where the list has one. -/
def findRec (rs : List ImgRec) (ty key : Nat) : Option ImgRec :=
  rs.find? fun r => r.ty == ty && r.key == key

/-- The first record of a type, whatever its key. -/
def firstRec (rs : List ImgRec) (ty : Nat) : Option ImgRec := rs.find? fun r => r.ty == ty

/-- The number in n bytes at an offset of a record's body, or a default where there is no record. -/
def recNat (r : Option ImgRec) (off n dflt : Nat) : Nat :=
  match r with
  | some r => leAt r.body off n
  | none => dflt

/-! ### Partitions -/

/-- Whether a base list forms partition p. -/
def formedIn (base : List ImgRec) (p : Nat) : Bool := (findRec base rtPartition p).isSome

/-- The formed partitions of a base, ascending. -/
def formedList (base : List ImgRec) : List Nat := upTo 64 (formedIn base)

def Dev.formed (d : Dev) (p : Nat) : Bool := formedIn d.eng.cfg.base p

/-- The signature bitmap of a partition. -/
def sigMap (base : List ImgRec) (p : Nat) : Nat := recNat (findRec base rtPartition p) 0 16 0

/-- The channel bitmap of a partition. -/
def chanMap (base : List ImgRec) (p : Nat) : Nat := recNat (findRec base rtPartition p) 16 64 0

/-- The partition that owns a signature; none: unassigned (R42). -/
def Dev.sigPart (d : Dev) (s : Nat) : Option Nat :=
  (formedList d.eng.cfg.base).find? fun p => bit (sigMap d.eng.cfg.base p) s

/-- The partition that owns a device quire (R13). -/
def Dev.quirePart (d : Dev) (n : Nat) : Option Nat := d.sigPart (n / 12)

/-- The partition that owns a dune channel. -/
def Dev.chanPart (d : Dev) (c : Nat) : Option Nat :=
  (formedList d.eng.cfg.base).find? fun p => bit (chanMap d.eng.cfg.base p) c

/-! ### Overlays in force (R58, R672) -/

/-- The mode overlay in force for a partition, with its MODE. -/
def Dev.modeOf (d : Dev) (p : Nat) : Nat × List ImgRec :=
  match d.eng.cfg.modeOf.find? (fun x => x.1 == p) with
  | some x => x.2
  | none => (0, [])

/-- A per-signature record in force: the specific key overrides the all-signatures key, and the overlay's record
replaces the base's of the same key (R40, R58). -/
def Dev.sigRec (d : Dev) (s ty : Nat) : Option ImgRec :=
  let mode := match d.sigPart s with
    | some p => (d.modeOf p).2
    | none => []
  (findRec mode ty s).or ((findRec d.eng.cfg.base ty s).or
    ((findRec mode ty allKey).or (findRec d.eng.cfg.base ty allKey)))

/-- A per-partition record in force. -/
def Dev.partRec (d : Dev) (p ty : Nat) : Option ImgRec :=
  (findRec (d.modeOf p).2 ty p).or (findRec d.eng.cfg.base ty p)

/-- The role byte of a device quire (R41). -/
def Dev.roleByte (d : Dev) (n : Nat) : Nat := recNat (d.sigRec (n / 12) rtQuireRole) (n % 12) 1 0

/-- What a quire works on: forward (0), backward (1), or nothing (2) (R41). -/
def Dev.quireRole (d : Dev) (n : Nat) : Nat :=
  match d.roleByte n with
  | 0 => if n % 12 < 4 then 0 else 1
  | 1 => 0
  | _ => 2

/-- Whether a signature runs in cluster mode (R40; a TRAIN or COMPAT-SQ overlay leaves the base's bit, R46). -/
def Dev.sigCluster (d : Dev) (s : Nat) : Bool := bit (recNat (d.sigRec s rtSigMode) 0 1 0) 0

/-- Whether a signature runs in fill mode; a TRAIN or COMPAT-SQ overlay puts every signature of the partition that its
SIG_MODE records do not name into fill mode (R46). -/
def Dev.sigFill (d : Dev) (s : Nat) : Bool :=
  let mode := match d.sigPart s with
    | some p => d.modeOf p
    | none => (0, [])
  let named := (findRec mode.2 rtSigMode s).isSome || (findRec mode.2 rtSigMode allKey).isSome
  if (mode.1 == 1 || mode.1 == 5) && !named then true
  else bit (recNat (d.sigRec s rtSigMode) 0 1 0) 1

/-! ### Fences (R45, R53) -/

def unitQuire (n : Nat) : Nat := 0x10000000 + n
def unitArray (n a : Nat) : Nat := 0x20000000 + n * 4 + a
def unitChan (c : Nat) : Nat := 0x30000000 + c
def unitPort (j : Nat) : Nat := 0x40000000 + j
def unitSig (s : Nat) : Nat := 0x50000000 + s

/-- The arrays of quire n that a list of units names. -/
def arraysIn (us : List Nat) (n : Nat) : List Nat := [0, 1, 2, 3].filter fun a => us.contains (unitArray n a)

/-- Arrays j and j XOR 2, or three arrays, of one quire (R365). -/
def arraysLost (down : List Nat) : Bool :=
  (down.contains 0 && down.contains 2) || (down.contains 1 && down.contains 3) || decide (3 ≤ down.length)

/-- A list of failing units with the whole quire in the place of arrays that R365 gives up together. -/
def mergeArrays (us : List Nat) : List Nat :=
  (us.map fun u =>
    let n := u % 0x10000000 / 4
    if u / 0x10000000 = 2 && arraysLost (arraysIn us n) then unitQuire n else u).eraseDups

/-- Whether an identifier names a unit of the device, or is padding (R45). -/
def unitIdOk (u : Nat) : Bool :=
  let i := u % 0x10000000
  match u / 0x10000000 with
  | 0 => i == 0
  | 1 => decide (i < 1536)
  | 2 => decide (i < 6144)
  | 3 => decide (i < 512)
  | 4 => decide (i < 32)
  | 5 => decide (i < 128)
  | _ => false

def Dev.fenced (d : Dev) (u : Nat) : Bool := d.eng.cfg.fences.contains u

/-- A quire is fenced by its own identifier or by its signature's. -/
def Dev.quireFenced (d : Dev) (n : Nat) : Bool := d.fenced (unitQuire n) || d.fenced (unitSig (n / 12))

def Dev.arrayFenced (d : Dev) (n a : Nat) : Bool := d.fenced (unitArray n a) || d.quireFenced n

def Dev.chanFenced (d : Dev) (c : Nat) : Bool := d.fenced (unitChan c)

def Dev.portFenced (d : Dev) (j : Nat) : Bool := d.fenced (unitPort j)

/-- An array that BIST narrowed to 8 x 7 (R103). -/
def Dev.arrayNarrowed (d : Dev) (n a : Nat) : Bool := d.eng.cfg.narrowed.any fun x => x.1 == n * 4 + a

/-- A quire that can take work: in a partition, not switched off, not fenced (R41, R42, R574). -/
def Dev.quireActive (d : Dev) (n : Nat) : Bool :=
  (d.quirePart n).isSome && d.quireRole n != 2 && !d.quireFenced n

/-- The active quires of a partition for a role, ascending (R675). -/
def Dev.activeQuires (d : Dev) (p role : Nat) : List Nat :=
  upTo 1536 fun n => d.quirePart n == some p && d.quireRole n == role && !d.quireFenced n

/-! ### Queues and tallies (R173, R174) -/

/-- Blocks of 32 queues of each kind: submission, completion, copy, fabric-send, event. -/
def queueBlocks (base : List ImgRec) (p : Nat) : List Nat :=
  match findRec base rtQueues p with
  | some r => [leAt r.body 0 4, leAt r.body 4 4, leAt r.body 8 4, leAt r.body 12 4, leAt r.body 16 4]
  | none => [32, 32, 32, 24, 8]

/-- Blocks of 64 tallies. -/
def tallyBlocks (base : List ImgRec) (p : Nat) : Nat := recNat (findRec base rtTallies p) 0 4 4

def listSum (l : List Nat) : Nat := l.foldl (· + ·) 0

/-- How many queues a partition has. -/
def queueCount (base : List ImgRec) (p : Nat) : Nat := 32 * listSum (queueBlocks base p)

/-- How many tallies a partition has. -/
def tallyCount (base : List ImgRec) (p : Nat) : Nat := 64 * tallyBlocks base p

/-- The absolute number of a partition's first queue. -/
def firstQueue (base : List ImgRec) (p : Nat) : Nat :=
  listSum (((formedList base).filter (· < p)).map (queueCount base))

/-- The absolute number of a partition's first tally. -/
def firstTally (base : List ImgRec) (p : Nat) : Nat :=
  listSum (((formedList base).filter (· < p)).map (tallyCount base))

/-- Where the queues of kind k (1 submission, 2 completion, 3 copy, 4 fabric-send, 5 event) begin in a partition. -/
def kindFirst (base : List ImgRec) (p k : Nat) : Nat := 32 * listSum ((queueBlocks base p).take (k - 1))

/-- How many queues of a kind a partition has. -/
def kindCount (base : List ImgRec) (p k : Nat) : Nat := 32 * (queueBlocks base p).getD (k - 1) 0

/-- The kind of the partition's relative queue n: 0 where there is none. -/
def relKind (base : List ImgRec) (p n : Nat) : Nat :=
  ([1, 2, 3, 4, 5].find? fun k =>
    decide (kindFirst base p k ≤ n) && decide (n < kindFirst base p k + kindCount base p k)).getD 0

/-- The partition of an absolute queue number. -/
def Dev.queuePart (d : Dev) (q : Nat) : Option Nat :=
  (formedList d.eng.cfg.base).find? fun p =>
    decide (firstQueue d.eng.cfg.base p ≤ q) &&
    decide (q < firstQueue d.eng.cfg.base p + queueCount d.eng.cfg.base p)

/-- The kind of an absolute queue number, 0 unassigned (QUE_CFG.KIND). -/
def Dev.queueKind (d : Dev) (q : Nat) : Nat :=
  match d.queuePart q with
  | some p => relKind d.eng.cfg.base p (q - firstQueue d.eng.cfg.base p)
  | none => 0

/-- The partition of an absolute tally number. -/
def Dev.tallyPart (d : Dev) (t : Nat) : Option Nat :=
  (formedList d.eng.cfg.base).find? fun p =>
    decide (firstTally d.eng.cfg.base p ≤ t) &&
    decide (t < firstTally d.eng.cfg.base p + tallyCount d.eng.cfg.base p)

/-- The absolute number of a partition's relative tally, where it is valid (R174). -/
def Dev.relTally (d : Dev) (p n : Nat) : Option Nat :=
  if n < tallyCount d.eng.cfg.base p && d.formed p then some (firstTally d.eng.cfg.base p + n) else none

/-- The absolute number of a partition's relative queue, where it is valid and of the kind asked for (R174). -/
def Dev.relQueue (d : Dev) (p n k : Nat) : Option Nat :=
  if d.formed p && relKind d.eng.cfg.base p n == k then some (firstQueue d.eng.cfg.base p + n) else none

/-- The absolute number of the i-th event ring of a partition. -/
def Dev.eventRing (d : Dev) (p i : Nat) : Option Nat :=
  if i < kindCount d.eng.cfg.base p 5 && d.formed p then
    some (firstQueue d.eng.cfg.base p + kindFirst d.eng.cfg.base p 5 + i) else none

/-! ### Device memory (R466, R468, R469) -/

/-- The version pool in 2 MiB units. -/
def poolVersion (base : List ImgRec) : Nat := recNat (findRec base rtPools 0) 8 8 (2 ^ 35) / 2097152

/-- The reduction pool in 2 MiB units. -/
def poolReduction (base : List ImgRec) : Nat := recNat (findRec base rtPools 0) 0 8 (2 ^ 31) / 2097152

/-- Granules of partition memory in each channel (H of R466). -/
def granules (base : List ImgRec) : Nat := 393216 - poolVersion base - poolReduction base

/-- The channels a partition's memory interleaves over: those of its bitmap that the base's FENCE records (in DEFAULT:
the fences of boot) do not leave out, ascending (R468, R469). -/
def Dev.activeChans (d : Dev) (p : Nat) : List Nat :=
  upTo 512 fun c => bit (chanMap d.eng.cfg.base p) c && !d.eng.cfg.leftOut.contains (unitChan c)

/-- The bytes a partition presents (PART_MEMORY.BYTES, CFG_DEFAULT_MEM.BYTES). -/
def Dev.presented (d : Dev) (p : Nat) : Nat := (d.activeChans p).length * granules d.eng.cfg.base * 4096

/-- The device channel that holds a byte of a partition's memory (R468). -/
def Dev.chanOf (d : Dev) (p o : Nat) : Nat :=
  let cs := d.activeChans p
  cs.getD (o / 4096 % cs.length) 0

/-- The granule within its channel (R468). -/
def Dev.chanGranule (d : Dev) (p o : Nat) : Nat := o / 4096 / (d.activeChans p).length

/-- The line index within the channel. -/
def Dev.chanLine (d : Dev) (p o : Nat) : Nat := d.chanGranule p o * 64 + o % 4096 / 64

/-! ### Training, security, fabric and rank records -/

/-- The TRAINING record in force for a partition (R44). -/
def Dev.training (d : Dev) (p : Nat) : Option ImgRec := d.partRec p rtTraining

/-- LS_MODE of a partition: a COMPAT-SQ overlay without a TRAINING record sets 1 (R69). -/
def Dev.lsMode (d : Dev) (p : Nat) : Nat :=
  let m := d.modeOf p
  if m.1 == 5 && (findRec m.2 rtTraining p).isNone then 1
  else recNat (d.training p) 4 1 0

def Dev.accumCount (d : Dev) (p : Nat) : Nat := recNat (d.training p) 0 4 1
def Dev.lsInitExp (d : Dev) (p : Nat) : Nat := recNat (d.training p) 5 1 16
def Dev.prefetchLayers (d : Dev) (p : Nat) : Nat := recNat (d.training p) 6 1 2
def Dev.lsGrowth (d : Dev) (p : Nat) : Nat := recNat (d.training p) 8 4 2000

/-- SECURITY bits of a partition: ENCRYPT 1, DEBUG_VISIBLE 0, SLOT_ACCEPT 0 when absent. -/
def Dev.security (d : Dev) (p : Nat) : Nat := recNat (findRec d.eng.cfg.base rtSecurity p) 0 1 1
def Dev.encrypts (d : Dev) (p : Nat) : Bool := d.formed p && bit (d.security p) 0
def Dev.debugVisible (d : Dev) (p : Nat) : Bool := d.formed p && bit (d.security p) 1
def Dev.slotAccept (d : Dev) (p : Nat) : Bool := d.formed p && bit (d.security p) 2

/-- The FABRIC record in force: that of an overlay under which some formed partition still runs (an overlay that
carries one is switched in for every formed partition, R63, and stays in force where a later switch does not reach,
R672), else the base's. -/
def Dev.fabricRec (d : Dev) : Option ImgRec :=
  let c := d.eng.cfg
  (c.modeOf.findSome? fun x => findRec x.2.2 rtFabric 0).or
    ((if formedList c.base = [] then findRec c.mode rtFabric 0 else none).or (findRec c.base rtFabric 0))

/-- Default traffic classes of R536, by traffic kind. -/
def defaultClasses : List Nat := [0, 0, 0, 1, 2, 2, 1, 3]

/-- The traffic class of a traffic kind (R536). -/
def Dev.classOf (d : Dev) (kind : Nat) : Nat :=
  match d.fabricRec with
  | some r => leAt r.body kind 1
  | none => defaultClasses.getD kind 0

/-- RETRY_BUDGET_NS. -/
def Dev.retryBudget (d : Dev) : Nat := recNat d.fabricRec 8 4 4000

def Dev.ranks (d : Dev) : Option ImgRec := firstRec d.eng.cfg.base rtRanks
def Dev.hasRanks (d : Dev) : Bool := d.ranks.isSome
def Dev.jobId (d : Dev) : Nat := recNat d.ranks 0 8 0
def Dev.rankCount (d : Dev) : Nat := recNat d.ranks 8 2 0
def Dev.ownRank (d : Dev) : Nat := recNat d.ranks 10 2 0
def rankBoard (r : Option ImgRec) (k : Nat) : Nat := recNat r (16 + 8 * k) 2 0
def rankPartner (r : Option ImgRec) (k : Nat) : Nat := recNat r (18 + 8 * k) 2 0
def rankFeed (r : Option ImgRec) (k : Nat) : Nat := recNat r (20 + 8 * k) 1 0
def rankFlags (r : Option ImgRec) (k : Nat) : Nat := recNat r (21 + 8 * k) 1 0

/-- The partition that packets addressed by rank reach: the lowest formed one, where there is a RANKS record (R537). -/
def Dev.rankPart (d : Dev) : Option Nat :=
  if d.hasRanks then (formedList d.eng.cfg.base).head? else none

/-- The partner of this device's rank (R43). -/
def Dev.partner (d : Dev) : Nat := rankPartner d.ranks d.ownRank

/-- The rank with JOB_MANAGER set, if any (R43). -/
def Dev.jobManagerRank (d : Dev) : Option Nat :=
  (upTo d.rankCount fun k => bit (rankFlags d.ranks k) 1).head?

/-- The board manager of a rank: the lowest rank of the same board with BOARD_MANAGER set. -/
def Dev.boardManagerOf (d : Dev) (r : Nat) : Option Nat :=
  (upTo d.rankCount fun k => bit (rankFlags d.ranks k) 0 && rankBoard d.ranks k == rankBoard d.ranks r).head?

/-- The TIER of the MANAGER overlay in force: 0 none, 1 board manager, 2 job manager. -/
def Dev.tier (d : Dev) : Nat := recNat (findRec d.eng.cfg.mgr rtManager 0) 0 1 0

/-- STEP_DEADLINE_US of the MANAGER overlay. -/
def Dev.stepDeadline (d : Dev) : Nat := recNat (findRec d.eng.cfg.mgr rtManager 0) 4 4 0

end Sys2Proof.Machine
end

