-- ==== Sys2Proof/Machine/Flits.lean ====
section
/-! DEFINITION. The flits of the Axoft Link (05): the header slot of a message, the 256 bytes of a flit with its CRC, and the
forward error correction of the flit stream. -/

namespace Sys2Proof.Machine

/-! ### Messages (R133, R134) -/

/-- The class of an opcode: 0 REQ, 1 SNP, 2 RSP, 3 DAT (R133). -/
def opClass (op : Nat) : Nat := op / 16

/-- The 128-bit header slot of a message (R133). -/
def Msg.header (m : Msg) : Nat :=
  opClass m.op + 2 ^ 2 * (m.op % 64) + 2 ^ 8 * (m.tag % 16384) + 2 ^ 22 * bv m.poison + 2 ^ 24 * (m.part % 64) +
  2 ^ 32 * (m.addr % 2 ^ 64) + 2 ^ 96 * (m.len % 128) + 2 ^ 104 * (m.arg % 256)

/-- The message that a header slot and its data spell (R133). -/
def Msg.ofHeader (h : Nat) (data : List Byte) : Msg :=
  { op := field h 2 6, tag := field h 8 14, part := field h 24 6, addr := field h 32 64, len := field h 96 7,
    arg := field h 104 8, poison := bit h 22, data := data }

/-- The slots of a message: its header slot, then its data in the slots that follow, the last one filled with zeros
(R133). -/
def Msg.slots (m : Msg) : List Byte :=
  leBytes 16 m.header ++ fit (ceilDiv m.data.length 16 * 16) m.data

/-! ### The flit (R127) -/

/-- The 64-bit header of a flit (R127). -/
def FlitHead.word (h : FlitHead) : Nat :=
  h.seq % 4096 + 2 ^ 12 * (h.ack % 4096) + 2 ^ 24 * (h.ty % 16) + 2 ^ 32 * (h.cr.req % 256) + 2 ^ 40 * (h.cr.snp % 256) +
  2 ^ 48 * (h.cr.rsp % 256) + 2 ^ 56 * (h.cr.dat % 256)

/-- The header that the first 8 bytes of a flit spell. -/
def FlitHead.ofWord (w : Nat) : FlitHead :=
  { seq := field w 0 12, ack := field w 12 12, ty := field w 24 4,
    cr := { req := field w 32 8, snp := field w 40 8, rsp := field w 48 8, dat := field w 56 8 } }

/-- The CRC-64/ECMA-182 polynomial without its leading term. -/
def crcPoly : BitVec 64 := 0x42F0E1EBA9EA3693

/-- One bit of the division. -/
def crcBit (c : BitVec 64) : BitVec 64 := if c.getLsbD 63 then (c <<< 1) ^^^ crcPoly else c <<< 1

/-- The CRC of a byte string, from a register of 0, most significant bit first and nothing inverted; PRESUMED (log 113). -/
def crc64 (bs : List Byte) : Nat :=
  (bs.foldl (fun c b => (List.range 8).foldl (fun c _ => crcBit c) (c ^^^ BitVec.ofNat 64 (b.toNat * 2 ^ 56))) (0 : BitVec 64)).toNat

/-- The 256 bytes of a flit: header, fifteen message slots, CRC over the 248 bytes before it (R127). -/
def flitBytes (h : FlitHead) (slots : List Byte) : List Byte :=
  let body := leBytes 8 h.word ++ fit 240 slots
  body ++ leBytes 8 (crc64 body)

/-- A received flit as its header fields and the 248 bytes behind them spell it: the fifteen slots and the CRC. TYPE stands with
the four reserved bits above it (R127). -/
def flitOf (seq ack ty req snp rsp dat : Nat) (body : List Byte) : List Byte :=
  leBytes 8 (seq % 4096 + 2 ^ 12 * (ack % 4096) + 2 ^ 24 * (ty % 256) + 2 ^ 32 * (req % 256) + 2 ^ 40 * (snp % 256) +
    2 ^ 48 * (rsp % 256) + 2 ^ 56 * (dat % 256)) ++ body

/-- The CRC of a received flit matches (R130). -/
def flitGood (bs : List Byte) : Bool := leAt bs 248 8 == crc64 (fit 248 bs)

/-- The header of a received flit. -/
def flitHead (bs : List Byte) : FlitHead := FlitHead.ofWord (leAt bs 0 8)

/-- A numbered flit as it goes onto the lanes, each time it is sent: a PAYLOAD flit with one message, whose slots begin the
flit; DESIGN CHOICE (log 113). -/
def HeldFlit.bytes (h : HeldFlit) : List Byte := flitBytes { seq := h.seq, ack := h.ack, ty := 1, cr := h.cr } h.msg.slots

/-! ### RS(544,514) (R128) -/

/-- Symbols that the code corrects in a codeword: half of its 30 check symbols. -/
def fecLimit : Nat := 15

/-- A product in GF(2^10) with the field polynomial x^10 + x^3 + 1 of IEEE 802.3 clause 91. -/
def gfMul (a b : Nat) : Nat :=
  (List.range 10).foldr (fun i s =>
    let t := 2 * s
    let t := if bit t 10 then t ^^^ 0x409 else t
    if bit b i then t ^^^ a else t) 0

/-- The powers of the primitive element. -/
def gfPow : Nat → Nat
  | 0 => 1
  | n + 1 => gfMul (gfPow n) 2

/-- The generator polynomial, the product of x - a^j for j below 30, from its leading coefficient down. -/
def rsGen : List Nat :=
  (List.range 30).foldl (fun g j => (List.zipWith (· ^^^ ·) (g ++ [0]) (0 :: g.map (gfMul (gfPow j))))) [1]

/-- The 30 check symbols of 514 message symbols: the remainder of the division by the generator. -/
def rsParity (msg : List Nat) : List Nat :=
  msg.foldl (fun r s =>
    let f := s ^^^ r.headD 0
    List.zipWith (· ^^^ ·) (r.drop 1 ++ [0]) ((rsGen.drop 1).map (gfMul f))) (List.replicate 30 0)

/-- The 514 symbols of a piece of the flit stream, 5,140 bits. -/
def rsSymbols (v : Nat) : List Nat := (List.range 514).map fun i => field v (10 * i) 10

/-- The codewords in which a run of flits goes out, the last one filled with zeros (R128). -/
def fecWords (flits : List Byte) : List (List Nat) :=
  (List.range (ceilDiv (8 * flits.length) 5140)).map fun i =>
    let s := rsSymbols (leNat flits >>> (5140 * i))
    s ++ rsParity s

/-- What the line did to the codewords that carry a flit: a codeword with up to 15 wrong symbols is corrected, one with
more fails (R128, R130). -/
def fecDecodes (errs : List Nat) : Bool := errs.all fun e => decide (e ≤ fecLimit)
def fecCorrected (errs : List Nat) : Nat := (errs.filter fun e => decide (1 ≤ e) && decide (e ≤ fecLimit)).length

end Sys2Proof.Machine
end

