-- ==== Sys2Proof/Machine/AxlCore.lean ====
section
/-! DEFINITION. Sending over the Axoft Link (05): opcodes, credits, tags, numbered flits, and the check of host
windows. -/

namespace Sys2Proof.Machine

/-! ### Opcodes (R134) -/

def opRdShared : Nat := 0x01
def opRdOwn : Nat := 0x02
def opRdUc : Nat := 0x03
def opWrLine : Nat := 0x04
def opWrPart : Nat := 0x05
def opEvictDirty : Nat := 0x06
def opEvictClean : Nat := 0x07
def opAtomic : Nat := 0x08
def opEvt : Nat := 0x09
def opSnpInv : Nat := 0x10
def opSnpShare : Nat := 0x11
def opCmp : Nat := 0x20
def opAckI : Nat := 0x21
def opAckS : Nat := 0x22
def opData : Nat := 0x30
def opDataM : Nat := 0x31

/-- An empty message of an opcode. -/
def Msg.mk0 (op : Nat) : Msg :=
  { op := op, tag := 0, part := 0, addr := 0, len := 0, arg := 0, poison := false, data := [] }

/-! ### Credits and flits (R129, R131, R135) -/

/-- The credits left for a class. -/
def Axl.credit (a : Axl) : Nat → Nat
  | 0 => a.crReq
  | 1 => a.crSnp
  | 2 => a.crRsp
  | _ => a.crDat

/-- Spend one credit of a class, whatever the message's length. -/
def Axl.spend (a : Axl) : Nat → Axl
  | 0 => { a with crReq := a.crReq - 1 }
  | 1 => { a with crSnp := a.crSnp - 1 }
  | 2 => { a with crRsp := a.crRsp - 1 }
  | _ => { a with crDat := a.crDat - 1 }

/-- Change the credits of one class. -/
def Credits.upd (c : Credits) (f : Nat → Nat) : Nat → Credits
  | 0 => { c with req := f c.req }
  | 1 => { c with snp := f c.snp }
  | 2 => { c with rsp := f c.rsp }
  | _ => { c with dat := f c.dat }

def Credits.add (a b : Credits) : Credits :=
  { req := a.req + b.req, snp := a.snp + b.snp, rsp := a.rsp + b.rsp, dat := a.dat + b.dat }
def Credits.sub (a b : Credits) : Credits :=
  { req := a.req - b.req, snp := a.snp - b.snp, rsp := a.rsp - b.rsp, dat := a.dat - b.dat }

/-- The credits that one flit can return: at most 255 of each class (R127). -/
def Credits.cut (a : Credits) : Credits :=
  { req := min 255 a.req, snp := min 255 a.snp, rsp := min 255 a.rsp, dat := min 255 a.dat }

/-- A message of the companion processor has come and takes one of the credits that it holds (R135). -/
def Axl.took (a : Axl) (cls : Nat) : Axl := { a with rx := a.rx.upd (· - 1) cls }

/-- The device is done with a message of the companion processor: its credit is to be returned. -/
def Axl.freed (a : Axl) (cls : Nat) : Axl := { a with owed := a.owed.upd (· + 1) cls }

/-- The header of the next flit: the last number accepted, and the credits that it returns (R127, R129). -/
def Axl.head (a : Axl) (ty seq : Nat) : FlitHead := { seq := seq, ack := (a.seqRx + 4095) % 4096, ty := ty, cr := a.owed.cut }

/-- Credits have gone out in a flit. -/
def Axl.returned (a : Axl) : Axl := { a with owed := a.owed.sub a.owed.cut, rx := a.rx.add a.owed.cut }

/-- Send a flit that takes no number: IDLE 0 or NAK 2, with the current ACK and credit returns (R126, R129, R130). -/
def Axl.sendFree (a : Axl) (ty seq : Nat) : Axl := { a.returned with last := some (a.head ty seq) }

/-- Give one message a numbered flit, where its class has a credit and fewer than 2,048 flits are held; otherwise it
waits behind the messages that wait already. -/
def Axl.putMsg (a : Axl) (m : Msg) : Axl :=
  if 0 < a.credit (opClass m.op) && a.held.length < 2048 then
    let h := a.head 1 a.seqTx
    let a := (a.spend (opClass m.op)).returned
    { a with held := a.held ++ [{ seq := a.seqTx, sends := 1, ack := h.ack, cr := h.cr, msg := m }]
             seqTx := (a.seqTx + 1) % 4096, poisonTx := a.poisonTx + bv m.poison }
  else { a with wait := a.wait ++ [m] }

/-- Send what can be sent of the messages that wait, in order. -/
def Axl.pump (a : Axl) : Axl := a.wait.foldl Axl.putMsg { a with wait := [] }

/-- Send a message, after those that wait. -/
def Axl.send (a : Axl) (m : Msg) : Axl := Axl.pump { a with wait := a.wait ++ [m] }

/-- The lowest TAG not in use, by a request or a snoop, and not retired (R137, R164). -/
def Axl.freeTag (a : Axl) : Option Nat :=
  ((List.range (min 16384 (a.reqs.length + a.recalls.length + a.retired.length + 1))).find? fun t =>
    !(a.reqs.any fun r => r.tag == t) && !(a.recalls.any fun r => r.tag == some t) && !a.retired.contains t)

/-- Issue one request: it takes a TAG and goes out, or waits for a TAG or for the last answer of an earlier request of
the device, the one requester of this side, to the same line (R152). -/
def Axl.issue (a : Axl) (w : ReqWait) : Axl :=
  let busy := (a.reqs.any fun r => r.addr / 64 == w.msg.addr / 64) ||
    (a.reqWait.any fun v => v.msg.addr / 64 == w.msg.addr / 64)
  match a.freeTag with
  | some t =>
    if busy then { a with reqWait := a.reqWait ++ [w] }
    else Axl.send { a with reqs := a.reqs ++ [{ tag := t, why := w.why, task := w.task, addr := w.msg.addr }] }
      { w.msg with tag := t }
  | none => { a with reqWait := a.reqWait ++ [w] }

/-- Issue the requests that wait, in order. -/
def Axl.issueAll (a : Axl) : Axl := a.reqWait.foldl Axl.issue { a with reqWait := [] }

/-- Change the snoop of a line that has not been answered. -/
def Axl.updRecall (a : Axl) (key : Nat) (f : Recall → Recall) : Axl :=
  { a with recalls := a.recalls.map fun r => if r.line == key then f r else r }

/-- The link is ACTIVE. -/
def Dev.axlUp (d : Dev) : Bool := d.fld AXL_STATUS_STATE == 2

/-- Send a message that takes no TAG of the device's own: an answer, a snoop, an eviction or an EVT; no request leaves once
a power-fail stop has begun (R83). -/
def axlSend (m : Msg) : Act := .dyn fun d =>
  Act.when (!d.eng.pwr.stopping || opClass m.op != 0) (.eng fun e => { e with axl := e.axl.send m })

/-- Send a request, on behalf of a task (0: none); none leaves once a power-fail stop has begun (R83). -/
def axlReq (m : Msg) (why : ReqFor) (task : Nat) : Act := .dyn fun d =>
  Act.when (!d.eng.pwr.stopping)
    (.eng fun e => { e with axl := Axl.issueAll { e.axl with reqWait := e.axl.reqWait ++ [⟨m, why, task⟩] } })

/-! ### Host requests to device memory (R147) -/

/-- The partition and the offset that a host address reaches. -/
def Dev.memAt (d : Dev) (addr : Nat) : Option (Nat × Nat) :=
  let mb := d.fld AXL_MEM_BAR_BASE
  if mb ≤ addr ∧ addr < mb + 2 ^ 46 then some ((addr - mb) / 2 ^ 40, (addr - mb) % 2 ^ 40) else none

/-- The line of a waiting host request. -/
def Dev.msgLine (d : Dev) (m : Msg) : Option Nat := (d.memAt m.addr).map fun x => memKey x.1 x.2 / 64

/-- Answer a request of the host, whose credit is then to be returned (R135). -/
def answerHost (m : Msg) : Act := .seq (.eng fun e => { e with axl := e.axl.freed 0 }) (axlSend m)

/-- An answer to a request: CMP with status OK or ERROR (R134, R146 to R149). -/
def answerCmp (m : Msg) (error : Bool) : Act :=
  answerHost { Msg.mk0 opCmp with tag := m.tag, addr := m.addr, arg := bv error }

/-- The device drops its own copy of a host line before it writes the line (R142). -/
def dropHostLine (line : Nat) : Act := .eng fun e =>
  { e with axl := { e.axl with filter := e.axl.filter.filter fun h => h.line != line } }

/-! ### Host windows (R150, R151) -/

/-- Window w of partition p covers a page, with the permit asked for. -/
def Dev.winCovers (d : Dev) (p w page : Nat) (write : Bool) : Bool :=
  let b := (d.reg (AXL_HWIN_BASE (p * 16 + w))).toNat
  let l := (d.reg (AXL_HWIN_LIMIT (p * 16 + w))).toNat
  bit b 0 && (!write || bit b 1) && decide (b / 4096 ≤ page) && decide (page ≤ l / 4096)

/-- The last page covered from a page on by one open window, the farthest-reaching one. -/
def Dev.winReach (d : Dev) (p page : Nat) (write : Bool) : Option Nat :=
  (upTo 16 fun w => d.winCovers p w page write).foldl (fun m w =>
    let l := (d.reg (AXL_HWIN_LIMIT (p * 16 + w))).toNat / 4096
    match m with
    | none => some l
    | some x => some (max x l)) none

/-- Every page from one to another lies in some open window: each round moves past one window. -/
def Dev.pagesOpen (d : Dev) (p : Nat) (write : Bool) (last : Nat) : Nat → Nat → Bool
  | 0, page => decide (last < page)
  | n + 1, page =>
    if last < page then true
    else match d.winReach p page write with
      | none => false
      | some l => Dev.pagesOpen d p write last n (l + 1)

/-- A device request of partition p to host memory is permitted when every byte lies in some open window, with write
permit for a write or an atomic (R150). -/
def Dev.hostPermit (d : Dev) (p addr len : Nat) (write : Bool) : Bool :=
  if len = 0 then true
  else if 2 ^ 64 < addr + len then false
  else d.pagesOpen p write ((addr + len - 1) / 4096) 17 (addr / 4096)

end Sys2Proof.Machine
end

