-- ==== Sys2Proof/Machine/FabCore.lean ====
section
/-! DEFINITION. Sending over the optical fabric (17): packet kinds and classes, the choice of a port, the end-to-end
window at the source, and the turn of the classes on a port. -/

namespace Sys2Proof.Machine

/-! ### Packet kinds (R536, R554) -/

def pkWrite : Nat := 0x01
def pkReadReq : Nat := 0x02
def pkReadData : Nat := 0x03
def pkAccumulate : Nat := 0x04
def pkTallyAdd : Nat := 0x05
def pkDoorbell : Nat := 0x06
def pkAck : Nat := 0x07
def pkGatherReq : Nat := 0x10
def pkGatherData : Nat := 0x11
def pkReduce : Nat := 0x18
def pkReduceAnswer : Nat := 0x19
def pkMirror : Nat := 0x1A
def pkRankDone : Nat := 0x20
def pkSendsClosed : Nat := 0x21
def pkOwnerDone : Nat := 0x22
def pkDecision : Nat := 0x23
def pkFaultRecord : Nat := 0x24
def pkJoin : Nat := 0x25
def pkPing : Nat := 0x26
def pkPong : Nat := 0x27
def pkOffset : Nat := 0x28
def pkHalt : Nat := 0x2A
def pkService : Nat := 0x30
def pkFillData : Nat := 0x31

/-- The traffic kind of a packet kind (R536). -/
def trafficKind (k : Nat) : Nat :=
  if k == pkReduce || k == pkReduceAnswer then 0
  else if k == pkTallyAdd || k == pkDoorbell then 2
  else if k == pkGatherReq || k == pkGatherData then 3
  else if k == pkWrite || k == pkReadReq || k == pkReadData || k == pkAccumulate then 4
  else if k == pkMirror then 5
  else if k == pkService then 6
  else if k == pkFillData then 7
  else 1

/-- The kinds that carry a SEQ and are acknowledged end to end (R536, R543). -/
def windowed (k : Nat) : Bool :=
  [pkRankDone, pkSendsClosed, pkOwnerDone, pkDecision, pkFaultRecord, pkJoin, pkHalt, pkTallyAdd, pkDoorbell, pkWrite,
    pkAccumulate, pkMirror, pkFillData].contains k

/-- The flow key of a packet (R538). -/
def flowKey (p : Pkt) : Nat :=
  match trafficKind p.kind with
  | 0 | 3 => p.addr
  | 2 => p.addr
  | 4 | 5 | 7 => p.addr / 4096
  | _ => 0

/-- A packet of a kind with nothing else in it. -/
def pkt0 (kind : Nat) : Pkt :=
  { dest := 0, src := 0, kind := kind, tc := 0, vl := 0, bySlot := false, poison := false, hops := 0, epoch := 0, seq := 0,
    incarnation := 0, part := 0, srcPart := 0, addr := 0, arg := 0, data := [] }

/-- Flits a packet takes: 244 packet bytes each, a 32-byte header first (R530, R535). -/
def pktFlits (p : Pkt) : Nat := ceilDiv (32 + p.data.length) 244

/-! ### Ports -/

def Dev.port (d : Dev) (j : Nat) : Port := Store.get (fun _ => Port.fresh) j d.eng.fab.ports

def setPort (j : Nat) (f : Port → Port) : Act := .eng fun e =>
  { e with fab := { e.fab with
      ports := Store.put (fun _ => Port.fresh) j (f (Store.get (fun _ => Port.fresh) j e.fab.ports)) e.fab.ports } }

/-- A port that carries traffic: UP and not fenced. -/
def Dev.portUp (d : Dev) (j : Nat) : Bool := d.fld (FAB_PORT_STATUS_STATE j) == 2 && !d.portFenced j

/-- PEER_JOINED: the peer carries this device's JOB_ID (R569). -/
def peerJoin (j : Nat) : Act := .dyn fun d =>
  Act.setB (FAB_PORT_STATUS_PEER_JOINED j) (d.hasRanks && (d.port j).peer == some d.jobId)

/-- Ports that reach a rank: those its ROUTES entry names; with no ROUTES record, the direct board ports (R40, R538). -/
def Dev.routePorts (d : Dev) (dest : Nat) : List Nat :=
  let map := match findRec d.eng.cfg.base rtRoutes 0 with
    | some r => leAt r.body (8 * dest) 4
    | none => 0
  let direct := (findRec d.eng.cfg.base rtRoutes 0).isNone
  upTo 32 fun j =>
    (if direct then d.fld (FAB_PORT_STATUS_PEER_RANK j) == dest && decide (4 ≤ j) else bit map j) &&
    d.portUp j && d.flag (FAB_PORT_STATUS_PEER_JOINED j)

/-- The direct ports to a board slot (R527). -/
def Dev.slotPorts (d : Dev) (slot : Nat) : List Nat :=
  upTo 32 fun j => decide (4 ≤ j) && (j / 4 == d.eng.pwr.straps.slot ^^^ slot) && d.portUp j

/-- The port that carries a packet: entry (flow key + DEST) mod k of the list (R538). -/
def Dev.choosePort (d : Dev) (p : Pkt) : Option Nat :=
  let l := if p.bySlot then d.slotPorts (p.dest % 8) else d.routePorts p.dest
  if l.length = 0 then none else l[(flowKey p + p.dest) % l.length]?

/-- Where a class and lane stands in the list of credits. -/
def creditAt (tc lane : Nat) : Nat := tc * 2 + lane

/-- The class that sends next: TC0 first, at most 7 of every 8 flits while another class waits; then TC1 to TC3 in
turn by weight (R549). -/
def Port.pick (p : Port) (w : Nat → Nat) : Option Nat :=
  let has := fun c => p.wait.any fun x => x.tc == c
  let other := has 1 || has 2 || has 3
  if has 0 && (!other || decide (p.tc0Run < 7)) then some 0
  else if has p.turn && decide (p.left < w p.turn) then some p.turn
  else ([1, 2, 3].map fun i => (p.turn - 1 + i) % 3 + 1).find? has

/-- Put the first waiting packet of the class whose turn it is on the link, where credits and the 2,048 held flits
allow. -/
def Port.sendOne (p : Port) (w : Nat → Nat) : Port :=
  match p.pick w with
  | none => p
  | some c =>
    match p.wait.find? fun x => x.tc == c with
    | none => p
    | some k =>
      let n := pktFlits k
      let cr := p.credits.getD (creditAt c k.vl) 0
      let heldFlits := (p.held.map HeldPkt.flits).foldl (· + ·) 0
      if n ≤ cr && heldFlits + n ≤ 2048 then
        { p with
          held := p.held ++ [{ seq := (p.seqTx + n - 1) % 65536, flits := n, sends := 1, pkt := k }]
          wait := p.wait.erase k
          credits := p.credits.set (creditAt c k.vl) (cr - n)
          seqTx := (p.seqTx + n) % 65536
          tc0Run := if c = 0 then p.tc0Run + n else 0
          turn := if c = 0 then p.turn else c
          left := if c = 0 then p.left else if c = p.turn then p.left + n else n }
      else p

/-- Send while anything can be sent. -/
def Port.pump (w : Nat → Nat) : Nat → Port → Port
  | 0, p => p
  | n + 1, p => Port.pump w n (p.sendOne w)

/-- The weight of a class on a port; 0 is read as 1 (R549, FAB_PORT_CFG). -/
def Dev.portWeight (d : Dev) (j c : Nat) : Nat :=
  max 1 (match c with
    | 1 => d.fld (FAB_PORT_CFG_W_TC1 j)
    | 2 => d.fld (FAB_PORT_CFG_W_TC2 j)
    | _ => d.fld (FAB_PORT_CFG_W_TC3 j))

/-- The stamp counter. -/
def Dev.now (d : Dev) : Nat := d.eng.stamp.toNat

/-- Once a power-fail stop has begun, the device sends nothing over the fabric but fault records (R83). -/
def Dev.mayLeave (d : Dev) (k : Pkt) : Bool := !d.eng.pwr.stopping || k.kind == pkFaultRecord

/-- Hand a packet to a port; one that leaves over a dateline moves to lane 1 (R541). -/
def portSend (j : Nat) (k0 : Pkt) : Act := .dyn fun d =>
  let k := if d.flag (FAB_PORT_CFG_DATELINE j) then { k0 with vl := 1 } else k0
  Act.when (d.mayLeave k) <| .all [setPort j fun p => Port.pump (d.portWeight j) (p.wait.length + 1) { p with wait := p.wait ++ [k] },
    Act.add (FAB_PORT_TRAFFIC_TX_FLITS j) (pktFlits k)]

/-- Send what a port can send now. -/
def portPump (j : Nat) : Act := .dyn fun d =>
  setPort j fun p => Port.pump (d.portWeight j) p.wait.length p

/-- Route a packet at its source: through the port R538 chooses, back to this device where DEST is its own rank (with
its partition noted), or held until a listed port comes into service. -/
def fabRoute (k : Pkt) : Act := .dyn fun d =>
  if !d.mayLeave k then .skip
  else if !k.bySlot && k.dest == d.ownRank && d.hasRanks then
    .eng fun e => { e with fab := { e.fab with own := e.fab.own ++ [{ k with part := d.rankPart.getD 0 }] } }
  else match d.choosePort k with
    | some j => portSend j k
    | none => .eng fun e => { e with fab := { e.fab with unrouted := e.fab.unrouted ++ [k] } }

/-- The number of unacknowledged windowed packets to one destination. -/
def Dev.inFlight (d : Dev) (bySlot : Bool) (dest : Nat) : Nat :=
  (d.eng.fab.e2e.filter fun x => x.pkt.bySlot == bySlot && x.pkt.dest == dest).length

/-- The SEQ last given to a destination; the counter starts at 1 and skips 0 (R543). -/
def Dev.lastSeq (d : Dev) (bySlot : Bool) (dest : Nat) : Nat :=
  match d.eng.fab.seqNo.find? fun x => x.1 == bySlot && x.2.1 == dest with
  | some x => x.2.2
  | none => 0

def nextSeq (n : Nat) : Nat := if (n + 1) % 2 ^ 32 = 0 then 1 else (n + 1) % 2 ^ 32

/-- Send a packet from this device: the header's own fields are filled in, a windowed kind takes a SEQ and is kept
until it is acknowledged, and the 1,025th packet to one destination waits; nothing leaves once a power-fail stop has
begun (R83, R535, R543, R544). -/
def fabSend (k0 : Pkt) (task : Nat) : Act := .dyn fun d =>
  let k := { k0 with
    src := if k0.bySlot then d.eng.pwr.straps.slot else d.ownRank
    tc := d.classOf (trafficKind k0.kind)
    hops := d.fld FAB_CFG_HOP_LIMIT
    incarnation := d.fld FAB_INCARNATION_VALUE }
  if d.eng.pwr.stopping then .skip
  else if !windowed k.kind then fabRoute k
  else if 1024 ≤ d.inFlight k.bySlot k.dest then
    .eng fun e => { e with fab := { e.fab with blocked := e.fab.blocked ++ [(k0, task)] } }
  else
    let n := nextSeq (d.lastSeq k.bySlot k.dest)
    let k := { k with seq := n }
    .all [.eng fun e => { e with fab := { e.fab with
        seqNo := (k.bySlot, k.dest, n) :: e.fab.seqNo.filter (fun x => !(x.1 == k.bySlot && x.2.1 == k.dest))
        e2e := e.fab.e2e ++ [{ pkt := k, port := d.choosePort k, resends := 0, task := task }] } },
      fabRoute k]

end Sys2Proof.Machine
end

