-- ==== Sys2Proof/Machine/EventRings.lean ====
section
/-! DEFINITION. The event rings of the units (20): which causes make them record, and their entries. -/

namespace Sys2Proof.Machine

/-! ### Recording (R645) -/

/-- The causes that hold: BOOT, DIAG, FAULT, REPAIR, LINK, FORCE, as MON_RING_STATUS.CAUSE orders them. -/
def Dev.causes (d : Dev) : Nat :=
  let phase := d.fld PWR_BOOT_STATUS_PHASE
  let link := fun s : Nat => s == 1 || s == 3
  bv (decide (1 ≤ phase) && decide (phase ≤ 6)) +
  2 * bv (d.fld CFG_ACTIVE_IMAGE_MODE == 3) +
  4 * bv d.eng.mon.fault +
  8 * bv (d.fld RES_FILL_STATUS_STATE == 1 || d.fld RES_SNAP_STATUS_STATE == 3 || d.fld PWR_RESET_BUSY_PARTS != 0) +
  16 * bv (link (d.fld AXL_STATUS_STATE) || (List.range 32).any fun j => link (d.fld (FAB_PORT_STATUS_STATE j))) +
  32 * bv (d.flag MON_RING_CFG_FORCE)

def Dev.recording (d : Dev) : Bool := d.causes != 0

/-! ### Units and entries (R645, R646) -/

def ringDune (b : Nat) : Nat := 1536 + b
def ringPort (j : Nat) : Nat := 1568 + j
def ringAxl : Nat := 1600
def ringBoot : Nat := 1601
def ringSnap : Nat := 1602
def ringFill : Nat := 1603
def ringMgr : Nat := 1604

/-- The ring of the unit that an R45 identifier names; the boot sequencer's where it names none (log 26). -/
def ringOfUnit (u : Nat) : Nat :=
  let i := u % 0x10000000
  match u / 0x10000000 with
  | 1 => i
  | 2 => i / 4
  | 3 => ringDune (i / 16)
  | 4 => ringPort i
  | 5 => i * 12
  | _ => ringBoot

/-- An entry of unit u's ring: the raw stamp, CODE and ARG. -/
def putEntry (u code arg : Nat) : Act := .dyn fun d =>
  let k := d.fld (MON_RING_COUNT_WRITTEN u) % 64
  .all [.reg (MON_RING u (2 * k)) d.eng.stamp,
    .reg (MON_RING u (2 * k + 1)) (BitVec.ofNat 64 (code + 65536 * arg)), Act.add (MON_RING_COUNT_WRITTEN u) 1]

/-- An event of a unit, recorded while a cause holds. -/
def ringEvent (u code arg : Nat) : Act := .dyn fun d =>
  Act.when (d.recording && decide (u ≤ ringMgr)) (putEntry u code arg)

/-- A change that may start recording: RECORDING names the causes that did (log 26). -/
def mayRecord (a : Act) : Act := .dyn fun d =>
  if d.recording then a
  else .seq a (.dyn fun d => Act.when d.recording (putEntry ringBoot 0xE d.causes))

def evPhase : Nat := 0x1
def evFence : Nat := 0x4
def evNarrow : Nat := 0x5
def evFault : Nat := 0x6
def evImage : Nat := 0x7
def evLink : Nat := 0x8
def evReplay : Nat := 0x9
def evDecision : Nat := 0xA
def evTaskStop : Nat := 0xB
def evFill : Nat := 0xC
def evSnapshot : Nat := 0xD
def evMark : Nat := 0xF0

/-! ### State registers whose changes are events -/

/-- PWR_BOOT_STATUS.PHASE changes: the phase that was running ends, and another starts. -/
def setPhase (n : Nat) : Act := .dyn fun d =>
  let old := d.fld PWR_BOOT_STATUS_PHASE
  .all [Act.when (decide (1 ≤ old) && decide (old ≤ 6)) (ringEvent ringBoot evPhase (old + 16)),
    mayRecord (Act.set PWR_BOOT_STATUS_PHASE n),
    Act.when (decide (1 ≤ n) && decide (n ≤ 6)) (ringEvent ringBoot evPhase n)]

/-- CFG_IMAGE_STATUS.STATE changes. -/
def setState (n : Nat) : Act := .all [Act.set CFG_IMAGE_STATUS_STATE n,
  .dyn fun d => ringEvent ringBoot evImage (n + 256 * d.fld CFG_IMAGE_STATUS_ERROR)]

/-- A port's STATE changes. -/
def portState (j n : Nat) : Act := .all [mayRecord (Act.set (FAB_PORT_STATUS_STATE j) n),
  .dyn fun d => ringEvent (ringPort j) evLink (n + 8 * d.fld (FAB_PORT_STATUS_WIDTH j))]

/-- The Axoft Link's STATE changes. -/
def axlState (n : Nat) : Act := .all [mayRecord (Act.set AXL_STATUS_STATE n),
  .dyn fun d => ringEvent ringAxl evLink (n + 8 * d.fld AXL_STATUS_WIDTH)]

/-- RES_FILL_STATUS.STATE changes. -/
def fillState (n : Nat) : Act := .all [mayRecord (Act.set RES_FILL_STATUS_STATE n),
  .dyn fun d => ringEvent ringFill evFill (d.fld RES_FILL_STATUS_GRANULES)]

/-- RES_SNAP_STATUS.STATE changes. -/
def snapState (n : Nat) : Act := .all [mayRecord (Act.set RES_SNAP_STATUS_STATE n),
  .dyn fun d => ringEvent ringSnap evSnapshot (n + 8 * d.fld RES_SNAP_STATUS_ERROR)]

end Sys2Proof.Machine
end

