-- ==== Sys2Proof/Machine/Flags.lean ====
section
/-! DEFINITION. Write-one-to-clear flags and their companion counters (R203, R204). -/

namespace Sys2Proof.Machine

/-- Hardware sets a W1C bit, which a software write in the same tcycle does not clear (R203). -/
def Act.mark (flag : Fld) : Act :=
  .seq (Act.set flag 1) (.eng fun e => { e with tcyc := { e.tcyc with raised := (flag.reg, flag.lo) :: e.tcyc.raised } })

/-- The bits of a register that hardware has set in this tcycle. -/
def Dev.raisedBits (d : Dev) (off : Nat) : Nat :=
  (d.eng.tcyc.raised.filter fun x => x.1 == off).foldl (fun m x => m ||| 2 ^ x.2) 0

/-- Hardware sets a W1C bit: the bit reads 1 and its companion counter goes up by one, modulo the counter's width,
whether or not the bit was 1 already (R204). -/
def Act.raise (flag counter : Fld) : Act := .all [Act.mark flag, Act.add counter 1]

end Sys2Proof.Machine
end

