-- ==== Sys2Proof/Machine/HangReq.lean ====
section
/-! DEFINITION. Requests for hang snapshots (20): their sources, their refusals and their end. -/

namespace Sys2Proof.Machine

/-- The error codes of MON_HANG_STATUS (R648). -/
def heBusy : Nat := 1
def heNotInService : Nat := 2
def heAbandoned : Nat := 3
def heRange : Nat := 4

/-- STATUS of a source: 0 is the driver's, p + 1 partition p's. -/
def hangState (src n : Nat) : Act :=
  if src = 0 then Act.set MON_HANG_STATUS_STATE n else Act.set (MON_PHANG_STATUS_STATE (src - 1)) n
def hangError (src n : Nat) : Act :=
  if src = 0 then Act.set MON_HANG_STATUS_ERROR n else Act.set (MON_PHANG_STATUS_ERROR (src - 1)) n

def updHang (f : List Nat → List Nat) : Act := .eng fun e => { e with mon := { e.mon with hang := f e.mon.hang } }

/-- The request that came first is captured; any other is pending (R638). -/
def hangStart : Act := .dyn fun d =>
  match d.eng.mon.hang with
  | [] => .skip
  | s :: _ => hangState s 2

/-- A source's request ends, and the next one starts. -/
def hangEnd (src error : Nat) : Act :=
  .all [updHang fun l => l.filter (· != src), hangState src 0, hangError src error, hangStart]

/-- The buffer of a source can hold a snapshot (R639; log 27). -/
def Dev.hangFits (d : Dev) (src : Nat) : Bool :=
  if src = 0 then decide (64 ≤ d.fld MON_HANG_LEN_BYTES) && d.fld MON_HANG_ADDR_ADDR % 64 == 0
  else
    let p := src - 1
    decide (64 ≤ d.fld (MON_PHANG_LEN_BYTES p)) && d.formed p &&
      decide (d.fld (MON_PHANG_BASE_BASE p) * 64 + d.fld (MON_PHANG_LEN_BYTES p) ≤ d.presented p)

/-- A request of a source, from a GO or from a barrier watchdog (R638, R639). -/
def hangRequest (src : Nat) (stall : Bool) : Act := .dyn fun d =>
  if d.eng.mon.hang.contains src then
    if stall then Act.add (MON_PHANG_STATUS_MISSED (src - 1)) 1 else hangError src heBusy
  else if d.fld PWR_BOOT_STATUS_PHASE != 7 || d.fld CFG_IMAGE_STATUS_STATE != 0 then hangError src heNotInService
  else if !d.hangFits src then hangError src heRange
  else .all [hangError src 0, hangState src 1, updHang fun l => l ++ [src], hangStart]

/-- Every capture is abandoned (R644). -/
def hangAbandonAll : Act := .dyn fun d =>
  .all [updHang fun _ => [], Act.each d.eng.mon.hang fun s => .seq (hangState s 0) (hangError s heAbandoned)]

/-- A partition is reset: its own capture is abandoned, and its request goes with its window (R92, R644). -/
def hangReset (p : Nat) : Act := .dyn fun d =>
  .all [Act.when (d.eng.mon.hang.head? == some (p + 1)) (hangError (p + 1) heAbandoned),
    updHang fun l => l.filter (· != p + 1), hangStart]

/-- The link is lost: the driver's capture is abandoned (R644). -/
def hangLinkLost : Act := .dyn fun d => Act.when (d.eng.mon.hang.contains 0) (hangEnd 0 heAbandoned)

end Sys2Proof.Machine
end

