-- ==== Sys2Proof/Machine/Threads.lean ====
section
/-! DEFINITION. Quires, caravans and threads as tables (07): looking them up, changing them, paths, and the end of a
task by a fault. -/

namespace Sys2Proof.Machine

/-! ### Lanes -/

/-- The lanes of a caravan. -/
def lanes : List Nat := List.range 32

/-- The lanes whose bit is set in a mask. -/
def maskLanes (m : Nat) : List Nat := lanes.filter (bit m)

/-- The mask of a list of lanes. -/
def laneMask (l : List Nat) : Nat := lanes.foldl (fun m i => if l.contains i then m + 2 ^ i else m) 0

/-- Write one value per lane into a store whose keys begin at a base. -/
def setLanes {α : Type} [DecidableEq α] (dflt : Nat → α) (base : Nat) (ls : List Nat) (f : Nat → α) (s : Store α) :
    Store α :=
  ls.foldl (fun s l => Store.put dflt (base + l) (f l) s) s

def zeroWord : Nat → Word := fun _ => 0
def zeroNat : Nat → Nat := fun _ => 0
def noPred : Nat → Bool := fun _ => false
def active : Nat → Thread := fun _ => .active
def zeroByte : Nat → Byte := fun _ => 0

/-! ### Caravans -/

def Caravan.pc (c : Caravan) (l : Nat) : Nat := Store.get zeroNat l c.pcs
def Caravan.thread (c : Caravan) (l : Nat) : Thread := Store.get active l c.thr
def Caravan.reg (c : Caravan) (r l : Nat) : Word := Store.get zeroWord (r * 32 + l) c.g
def Caravan.uni (c : Caravan) (r : Nat) : Word := Store.get zeroWord r c.u
def Caravan.pred (c : Caravan) (r l : Nat) : Bool := Store.get noPred (r * 32 + l) c.p

def Caravan.exited (c : Caravan) (l : Nat) : Bool := c.thread l == .exited
def Caravan.isActive (c : Caravan) (l : Nat) : Bool := c.thread l == .active

/-- The live lanes: every lane that has not exited (R216). -/
def Caravan.live (c : Caravan) : List Nat := lanes.filter fun l => !c.exited l

/-- The path at a program counter: the ACTIVE threads that share it (R218). -/
def Caravan.path (c : Caravan) (pc : Nat) : List Nat := lanes.filter fun l => c.isActive l && c.pc l == pc

/-- Give lanes a state. -/
def Caravan.setThreads (c : Caravan) (ls : List Nat) (t : Thread) : Caravan :=
  { c with thr := setLanes active 0 ls (fun _ => t) c.thr }

/-- Move lanes to a program counter. -/
def Caravan.jump (c : Caravan) (ls : List Nat) (pc : Nat) : Caravan :=
  { c with pcs := setLanes zeroNat 0 ls (fun _ => pc) c.pcs }

/-- Advance lanes past the instruction they stand at. -/
def Caravan.advance (c : Caravan) (ls : List Nat) (n : Nat) : Caravan :=
  { c with pcs := setLanes zeroNat 0 ls (fun l => c.pc l + n) c.pcs }

/-! ### Quires -/

def idleQuire : Nat → Quire := fun _ => Quire.idle

def Dev.quire (d : Dev) (n : Nat) : Quire := Store.get idleQuire n d.eng.quires

/-- Change one quire. -/
def updQuire (n : Nat) (f : Quire → Quire) : Act := .eng fun e =>
  { e with quires := Store.put idleQuire n (f (Store.get idleQuire n e.quires)) e.quires }

/-- Change every quire that is not idle. -/
def updQuires (f : Nat → Quire → Quire) : Act := .eng fun e =>
  { e with quires := e.quires.foldl (fun s kv => Store.put idleQuire kv.1 (f kv.1 (Store.get idleQuire kv.1 e.quires)) s) [] }

def Quire.caravan (q : Quire) (slot : Nat) : Option Caravan := q.caravans.find? fun c => c.slot == slot

def Quire.setCaravan (q : Quire) (c : Caravan) : Quire :=
  { q with caravans := q.caravans.map fun x => if x.slot == c.slot then c else x }

/-- Change the caravan of a slot, where there is one. -/
def updCaravan (n slot : Nat) (f : Caravan → Caravan) : Act := updQuire n fun q =>
  { q with caravans := q.caravans.map fun x => if x.slot == slot then f x else x }

def Dev.caravan (d : Dev) (n slot : Nat) : Option Caravan := (d.quire n).caravan slot

/-- The gathering a caravan belongs to. -/
def Quire.gathOf (q : Quire) (c : Caravan) : Option Gathering :=
  q.gaths.find? fun g => g.task == c.task && g.num == c.gath

/-- Change a gathering. -/
def updGath (n task num : Nat) (f : Gathering → Gathering) : Act := updQuire n fun q =>
  { q with gaths := q.gaths.map fun g => if g.task == task && g.num == num then f g else g }

/-! ### Tasks -/

def Dev.task (d : Dev) (id : Nat) : Option Task := d.eng.tasks.find? fun t => t.id == id

/-- The task that a number belongs to: a task's own, or that of an access, a copy, a row or a gather. -/
def Dev.ownerOf (d : Dev) (id : Nat) : Nat := Store.get (fun k => k) id d.eng.owners

/-- Take a number for an access, a copy, a row or a gather of a task. -/
def newId (task : Nat) (k : Nat → Act) : Act := .dyn fun d =>
  .seq (.eng fun e => { e with
      nextTask := e.nextTask + 1
      owners := Store.put (fun k => k) d.eng.nextTask task e.owners })
    (k d.eng.nextTask)

/-- Change a task. -/
def updTask (id : Nat) (f : Task → Task) : Act := .eng fun e =>
  { e with tasks := e.tasks.map fun t => if t.id == id then f t else t }

/-- A request reads: its answer carries data that only its reader waits for. -/
def ReqFor.reads : ReqFor → Bool
  | .record _ | .write _ | .evict => false
  | _ => true

/-- Abandon the demand accesses of the caravans that a test picks. -/
def dropWaits (p : Nat → Nat → Bool) : Act := .eng fun e =>
  { e with memWaits := e.memWaits.filter fun w => !p w.quire w.slot }

/-- Stop every caravan of a task: they turn STOPPING and their accesses, copies, streams and queued instructions are
abandoned, the host reads among them with their answers (R217, R248, R322). The waiting instances of its gatherings are discarded without a stall record (R239). -/
def stopTask (id : Nat) : Act := .dyn fun d =>
  let mine := fun n slot => match d.caravan n slot with
    | some c => c.task == id
    | none => false
  .all [dropWaits mine, .eng fun e => { e with
      svcs := e.svcs.filter fun x => x.task != id
      proof := { e.proof with commits := e.proof.commits.filter fun w => w.task != id }
      axl := { e.axl with
        reqs := e.axl.reqs.map fun r => if r.why.reads && d.ownerOf r.task == id then { r with task := 0 } else r
        reqWait := e.axl.reqWait.filter fun r => !(r.why.reads && d.ownerOf r.task == id) } },
    updQuires fun n q =>
      { q with
        caravans := q.caravans.map fun c => if c.task == id then { c with stopping := true } else c
        stalls := q.stalls.filter fun s => s.task != id
        accs := q.accs.filter fun a => !mine n a.slot
        fences := q.fences.filter fun a => !mine n a.slot
        bars := q.bars.filter fun a => !mine n a.slot
        copies := q.copies.filter fun c => c.task != id
        streams := q.streams.filter fun kv => kv.2.task != id
        gathers := q.gathers.filter fun g => g.task != id
        mtx := { q.mtx with queue := q.mtx.queue.filter fun o => o.task != id }
        vec := { q.vec with
          queue := q.vec.queue.filter fun o => o.task != id
          run := q.vec.run.filter fun r => r.op.task != id } }]

/-- A task that a fault stops is an event of each quire that holds a gathering of it (R646). -/
def taskStopped (id status fkind : Nat) : Act := .dyn fun d =>
  match d.task id with
  | some t =>
    let q := t.queue - firstQueue d.eng.cfg.base t.part
    Act.when (status != 0 && d.recording && !t.ended)
      (Act.each (d.eng.quires.filter fun kv => kv.2.gaths.any fun g => g.task == id) fun kv =>
        ringEvent kv.1 evTaskStop (q + 2 ^ 18 * fkind))
  | none => .skip

/-- The fault kind of a demand access that the host windows refuse (R150). -/
def fkHostWindow : Nat := 0x000C

/-- A request that the host windows refuse is counted (R150, R169). -/
def windowRefusal : Act := Act.count AXL_CONTAIN_COUNT_WINDOW 1

/-- End a task's work with a status and fault kind, unless it has failed already: a task reports the first fault
(R288). Its caravans stop. -/
def endTask (num status fkind : Nat) : Act := .dyn fun d =>
  let id := d.ownerOf num
  .all [Act.when (fkind == fkHostWindow) windowRefusal, taskStopped id status fkind,
    updTask id fun t => if t.ended && t.status != 0 then t else { t with ended := true, status := status, fkind := fkind },
    stopTask id]

/-- Status codes of a completion record (R194). -/
def stOk : Nat := 0
def stRange : Nat := 1
def stOverlap : Nat := 2
def stGroup : Nat := 3
def stFault : Nat := 4
def stBadDescriptor : Nat := 5
def stDependency : Nat := 6

/-! ### Program faults (R248, R288) -/

/-- A program fault of the instruction that a slot of a quire issues ends its task (R248). -/
def programFault (id n slot kind : Nat) : Act := .seq (endTask id stFault kind)
  (.eng fun e => { e with tcyc := { e.tcyc with faults := e.tcyc.faults ++ [(id, n, slot)] } })

/-- The quire and the slot whose fault a task reports, where a program fault has ended it in this tcycle. -/
def Dev.faultedAt (d : Dev) (id : Nat) : Option (Nat × Nat) := (d.eng.tcyc.faults.find? fun x => x.1 == id).map Prod.snd

/-- The device as an instruction of a task saw it that issues in the tcycle in which the task faults: the task has not ended
and its caravans have not stopped. -/
def Dev.unfaulted (d : Dev) (id : Nat) : Dev :=
  { d with eng := { d.eng with
      tasks := d.eng.tasks.map fun t => if t.id == id then { t with ended := false, status := 0, fkind := 0 } else t
      quires := d.eng.quires.map fun kv => (kv.1, { kv.2 with
        caravans := kv.2.caravans.map fun c => if c.task == id then { c with stopping := false } else c })
      tcyc := { d.eng.tcyc with faults := d.eng.tcyc.faults.filter fun x => x.1 != id } } }

/-- An instruction commanded in the tcycle in which its task has faulted elsewhere: where it faults as well, on a lower quire,
or on the same one in a lower slot, the task reports its fault (R288; log 121). -/
def lateFault (n slot : Nat) (a : Act) : Act := .dyn fun d =>
  match (d.caravan n slot).bind fun c => (d.faultedAt c.task).map fun f => (c.task, f) with
  | none => .skip
  | some (id, m, sl) =>
    if m < n || (m == n && sl ≤ slot) then .skip
    else match (a.run (d.unfaulted id)).task id with
      | some t => Act.when (t.ended && t.status == stFault) (.eng fun e => { e with
          tasks := e.tasks.map fun x => if x.id == id then { x with fkind := t.fkind } else x
          tcyc := { e.tcyc with faults := (id, n, slot) :: e.tcyc.faults.filter fun x => x.1 != id } })
      | none => .skip

end Sys2Proof.Machine
end

