-- ==== Sys2Proof/Machine/Rings.lean ====
section
/-! DEFINITION. Rings and tallies (06): posting records into completion and event rings, ring errors, and tally
updates with the waiters they release. -/

namespace Sys2Proof.Machine

/-! ### Rings -/

def noRing : Nat → Ring := fun _ => Ring.empty

def Dev.ring (d : Dev) (q : Nat) : Ring := Store.get noRing q d.eng.rings

def updRing (q : Nat) (f : Ring → Ring) : Act := .eng fun e =>
  { e with rings := Store.put noRing q (f (Store.get noRing q e.rings)) e.rings }

/-- Slots of a ring (R175). -/
def Dev.ringSize (d : Dev) (q : Nat) : Nat := 2 ^ d.fld (QUE_CFG_LOG2_SIZE q)

/-- Pending slots of a ring (R176). -/
def Dev.ringPending (d : Dev) (q : Nat) : Nat :=
  (d.fld (QUE_TAIL_TAIL q) + d.ringSize q - d.fld (QUE_HEAD_HEAD q)) % d.ringSize q

/-- The ring is full at size - 1 entries (R176). -/
def Dev.ringFull (d : Dev) (q : Nat) : Bool := d.ringPending q + 1 == d.ringSize q

def Dev.ringEnabled (d : Dev) (q : Nat) : Bool := d.flag (QUE_CFG_ENABLE q)

/-- The byte address of a ring slot, in host memory or in the partition's memory (R175). -/
def Dev.slotAddr (d : Dev) (q slot : Nat) : Nat := d.fld (QUE_BASE_BASE q) * 4096 + slot * 64

/-- ERROR_CODE values (R208). -/
def qeBadDoorbell : Nat := 1
def qeNotEnabled : Nat := 2
def qeBadHead : Nat := 3
def qeConfigWhileEnabled : Nat := 4
def qeBadDescriptor : Nat := 5
def qeRingAccess : Nat := 6

/-- The partition's QUEUE_ERROR flag and its counter (R202, R207). -/
def queueError (p : Nat) : Act := Act.raise (PART_STATUS_QUEUE_ERROR p) (PART_ERROR_COUNT_ERRORS p)

/-- A ring error: QUE_STATUS.ERROR with its code, and the partition's QUEUE_ERROR (R178, R207). -/
def ringError (q code : Nat) : Act := .dyn fun d =>
  .all [Act.raise (QUE_STATUS_ERROR q) (QUE_STATUS_ERROR_COUNT q), Act.set (QUE_STATUS_ERROR_CODE q) code,
    match d.queuePart q with
    | some p => queueError p
    | none => .skip]

/-- Records dropped instead of written (AXL_EVT_LOST). -/
def evtLost (n : Nat) : Act := Act.count AXL_EVT_LOST_COUNT n

/-- Drop the records held for a ring, each counted (R165, R180). -/
def dropHeld (q : Nat) : Act := .dyn fun d =>
  .all [evtLost (d.ring q).held.length, updRing q (fun r => { r with held := [] }), Act.set (QUE_STATUS_HELD q) 0]

/-- A record with its phase bit in byte 63 (R154, R155). -/
def withPhase (r : List Byte) (ph : Bool) : List Byte := r.take 63 ++ [if ph then 0x80 else 0]

/-- The record as it is written: an IMAGE_DONE, UCODE_DONE, POWER_WARN or READY record of an event ring holds the stamp counter
at the write (R197). -/
def Dev.stamped (d : Dev) (q : Nat) (r : List Byte) : List Byte :=
  if d.queueKind q == 5 && [2, 3, 4, 5].contains (leAt r 0 1) then r.take 16 ++ leBytes 8 d.now ++ r.drop 24 else r

/-- Write a record into slot TAIL of a completion or event ring as one WR_LINE (R154), under the partition's host
windows; refused, it is dropped and counted and the ring is disabled (R674). The device's copy of the slot's line goes first
(R142). -/
def ringWrite (q : Nat) (r : List Byte) : Act := .dyn fun d =>
  let p := (d.queuePart q).getD 0
  let tail := d.fld (QUE_TAIL_TAIL q)
  let addr := d.slotAddr q tail
  if !d.hostPermit p addr 64 true then
    .all [evtLost 1, windowRefusal, Act.set (QUE_CFG_ENABLE q) 0, ringError q qeRingAccess,
      dropHeld q]
  else
    let next := (tail + 1) % d.ringSize q
    let ph := (d.ring q).phase
    .all [dropHostLine (addr / 64), axlReq { Msg.mk0 opWrLine with part := p, addr := addr, data := withPhase (d.stamped q r) ph } (.record q) 0,
      Act.set (QUE_TAIL_TAIL q) next,
      updRing q fun x => { x with phase := if next = 0 then !ph else ph },
      Act.add (QUE_COUNT_ITEMS q) 1]

/-- Post a record to a completion or event ring: dropped and counted when the ring is disabled or the link is down
(R165, R180, R196), held while the ring is full (R156, R160: an event ring holds 64), otherwise written. -/
def post (q : Nat) (r : List Byte) : Act := .dyn fun d =>
  if !d.ringEnabled q || !d.axlUp then evtLost 1
  else if d.ringFull q || (d.ring q).held != [] then
    if d.queueKind q == 5 && decide (64 ≤ (d.ring q).held.length) then evtLost 1
    else .all [updRing q (fun x => { x with held := x.held ++ [r] }), Act.set (QUE_STATUS_HELD q) 1]
  else ringWrite q r

/-- Write held records while the ring has room, at most n of them. -/
def flushHeld (q : Nat) : Nat → Act
  | 0 => .skip
  | n + 1 => .dyn fun d =>
    match (d.ring q).held with
    | [] => Act.set (QUE_STATUS_HELD q) 0
    | r :: t =>
      if d.ringFull q then .skip
      else .all [updRing q (fun x => { x with held := t }), Act.when (t == []) (Act.set (QUE_STATUS_HELD q) 0),
        ringWrite q r, flushHeld q n]

/-! ### Event records (R196, R197) -/

/-- The host event ring. -/
def Dev.hostRing (d : Dev) : Nat := d.fld CFG_HOST_EVENT_QUEUE_QUEUE

/-- The partition's first event ring outside the event block of 32 that holds the host event ring (R196). -/
def Dev.partRing (d : Dev) (p : Nat) : Option Nat :=
  match d.eventRing p 0 with
  | none => none
  | some q0 => if q0 ≤ d.hostRing && d.hostRing < q0 + 32 then d.eventRing p 32 else some q0

/-- An event record: TYPE, what the type carries, the stamp at bytes 16 to 23 (R196, R197). -/
def evtRecord (d : Dev) (ty : Nat) (b4 : List Byte) (b8 : List Byte) (b24 : List Byte) : List Byte :=
  leBytes 1 ty ++ [0, 0, 0] ++ fit 4 b4 ++ fit 8 b8 ++ leBytes 8 d.now ++ fit 32 b24 ++ List.replicate 8 0

/-- Post a device-wide event record to the host event ring. -/
def postHost (ty : Nat) (b4 b8 b24 : List Byte) : Act := .dyn fun d => post d.hostRing (evtRecord d ty b4 b8 b24)

/-! ### Tallies (R198 to R202) -/

/-- A wait for target T is satisfied when (VALUE - T) mod 2^32 is below 2^31 (R198). -/
def tallySat (v t : Nat) : Bool := decide ((v + 2 ^ 32 - t % 2 ^ 32) % 2 ^ 32 < 2 ^ 31)

/-- Set the predicate that an instruction's DST names, for some lanes; gz discards. -/
def Caravan.setPred (c : Caravan) (dst : Nat) (ls : List Nat) (v : Bool) : Caravan :=
  if 0x140 ≤ dst && dst < 0x148 then
    { c with p := setLanes noPred ((dst - 0x140) * 32) ls (fun _ => v) c.p }
  else c

/-- Release one thread that waits on a tally: its predicate tells whether the wait was satisfied (R279), and it goes
on past the TALLY.WAIT. -/
def Caravan.tallyWake (c : Caravan) (t : Nat) (v : Nat) (faulted : Bool) (l : Nat) : Caravan :=
  match c.thread l with
  | .waitTally t' target dst =>
    if t' == t && !c.stopping && (faulted || tallySat v target) then
      ((c.setPred dst [l] (!faulted)).setThreads [l] .active).advance [l] 8
    else c
  | _ => c

/-- A ring whose waiting descriptor the tally releases, or fails (R188, R195). -/
def Ring.tallyWake (r : Ring) (n : Nat) (v : Nat) (faulted : Bool) (now : Nat) : Ring :=
  match r.desc with
  | some b =>
    if r.wait == 0 && leAt b 12 2 == n && n != 0xFFFF then
      if faulted then { r with wait := 2, since := now }
      else if tallySat v (leAt b 16 4) then { r with wait := 1, since := now }
      else r
    else r
  | none => r

/-- Evaluate every waiter of a tally after an update of it: threads, and descriptors at the head of the partition's
rings, whose BLOCKED bit clears (R188, R198, R201). -/
def wakeTally (t : Nat) : Act := .dyn fun d =>
  let v := d.fld (TLY_VALUE_VALUE t)
  let faulted := d.flag (TLY_VALUE_FAULTED t)
  match d.tallyPart t with
  | none => .skip
  | some p =>
    let n := t - firstTally d.eng.cfg.base p
    let mine := fun q => d.queuePart q == some p
    .all [updQuires fun _ q =>
        { q with caravans := q.caravans.map fun c => lanes.foldl (fun c l => c.tallyWake t v faulted l) c },
      Act.each (d.eng.rings.filter fun kv => mine kv.1 && (kv.2.tallyWake n v faulted d.now).wait != kv.2.wait)
        fun kv => .all [updRing kv.1 fun r => r.tallyWake n v faulted d.now, Act.set (QUE_STATUS_BLOCKED kv.1) 0]]

/-- The armed event of a tally: one TALLY_REACHED record to the partition's event ring, and ARM clears; an invalid
RING raises QUEUE_ERROR instead (R202). -/
def fireTally (t : Nat) : Act := .dyn fun d =>
  if d.flag (TLY_EVENT_ARM t) && tallySat (d.fld (TLY_VALUE_VALUE t)) (d.fld (TLY_EVENT_TARGET t)) then
    match d.tallyPart t with
    | none => .skip
    | some p =>
      let n := t - firstTally d.eng.cfg.base p
      match d.eventRing p (d.fld (TLY_EVENT_RING t)) with
      | some q => .all [post q (evtRecord d 7 (leBytes 4 n) (leBytes 4 (d.fld (TLY_VALUE_VALUE t))) []),
          Act.set (TLY_EVENT_ARM t) 0]
      | none => queueError p
  else .skip

/-- What follows every SET and ADD of a tally. -/
def tallyUpdated (t : Nat) : Act := .all [Act.add (TLY_COUNT_UPDATES t) 1, wakeTally t, fireTally t]

/-- What has been added to a tally in this tcycle. -/
def Dev.added (d : Dev) (t : Nat) : Nat := Store.get zeroNat t d.eng.tcyc.adds

/-- SET: it takes effect before the ADDs of its tcycle (R198, R199). -/
def tallySet (t v : Nat) : Act := .dyn fun d =>
  .all [Act.set (TLY_VALUE_VALUE t) ((v + d.added t) % 2 ^ 32), tallyUpdated t]

/-- ADD: a 32-bit addend, modulo 2^32 (R198). -/
def tallyAdd (t addend : Nat) : Act := .dyn fun d =>
  .all [.eng fun e => { e with tcyc := { e.tcyc with
      adds := Store.put zeroNat t ((d.added t + addend) % 2 ^ 32) e.tcyc.adds } },
    Act.add (TLY_VALUE_VALUE t) addend, tallyUpdated t]

/-- Set a tally's FAULTED bit (R195). -/
def tallyFault (t : Nat) : Act := .all [Act.raise (TLY_VALUE_FAULTED t) (TLY_COUNT_FAULTS t), wakeTally t]

end Sys2Proof.Machine
end

