-- ==== Sys2Proof/Machine/Records.lean ====
section
/-! DEFINITION. Fault records (18): kinds, severities, the 64 bytes, the outbox, the boot log and the paths a record
takes; and the fencing of units. -/

namespace Sys2Proof.Machine

/-! ### MCTP messages (R30) -/

/-- What an MCTP message begins with: message type 0x7E and the vendor identifier 0x4E53, little-endian. -/
def mctpHead : List Byte := 0x7E :: leBytes 2 0x4E53

/-- Completion code REFUSED. -/
def mcRefused : Byte := 0x01

/-! ### Fault kinds (R576) -/

def fkRegRange : Nat := 0x0001
def fkBarMismatch : Nat := 0x0002
def fkCollMask : Nat := 0x0003
def fkBarrierTimeout : Nat := 0x0004
def fkBadHeader : Nat := 0x0005
def fkPcRange : Nat := 0x0006
def fkIllegal : Nat := 0x0007
def fkOperandKind : Nat := 0x0008
def fkMisaligned : Nat := 0x0009
def fkLeafRange : Nat := 0x000A
def fkMemRange : Nat := 0x000B
def fkPoison : Nat := 0x000D
def fkHostTimeout : Nat := 0x000E
def fkProofHostWrite : Nat := 0x000F
def fkTallyRange : Nat := 0x0010
def fkRole : Nat := 0x0011
def fkAccRange : Nat := 0x0012
def fkVcount : Nat := 0x0013
def fkProofLimit : Nat := 0x0014
def fkProofRole : Nat := 0x0015
def fkVersionFull : Nat := 0x0016
def fkPeerDropped : Nat := 0x0017
def fkSeqQuire : Nat := 0x0100
def fkSeqArray : Nat := 0x0101
def fkSeqDune : Nat := 0x0102
def fkSeqPort : Nat := 0x0103
def fkUeDune : Nat := 0x0104
def fkUeQuire : Nat := 0x0105
def fkChecksum : Nat := 0x0106
def fkLinkLoss : Nat := 0x0107
def fkLaserLoss : Nat := 0x0108
def fkSpine : Nat := 0x0109
def fkBistFail : Nat := 0x010A
def fkTrainFail : Nat := 0x010B
def fkAxlLinkLoss : Nat := 0x0180
def fkPowerFail : Nat := 0x0181
def fkPartitionReset : Nat := 0x0182
def fkBootFailed : Nat := 0x0183
def fkUnreachable : Nat := 0x0184
def fkManagerLost : Nat := 0x0185
def fkSilent : Nat := 0x0186
def fkNarrowed : Nat := 0x0200
def fkFillDone : Nat := 0x0201
def fkFillAborted : Nat := 0x0202
def fkSnapshotDone : Nat := 0x0203
def fkSnapshotAbandoned : Nat := 0x0204

/-- Severities (R577). -/
def sevNotice : Nat := 0
def sevFault : Nat := 1
def sevRank : Nat := 2
def sevDevice : Nat := 3

/-- The severity a kind has in the table of R576. -/
def kindSeverity (k : Nat) : Nat :=
  if k ≥ 0x200 then sevNotice
  else if [fkSeqDune, fkUeDune, fkChecksum, fkPartitionReset, fkSilent].contains k then sevRank
  else if [fkSpine, fkPowerFail, fkBootFailed].contains k then sevDevice
  else sevFault

/-! ### The record (R577) -/

/-- What a record says, beside the fields every record of this device carries. -/
structure Fault0 where
  kind : Nat
  severity : Nat
  rank : Nat
  part : Nat
  unit : Nat
  detail : List Byte
  deriving DecidableEq, Repr

/-- Boot is in progress: PHASE below READY (R578). -/
def Dev.booting (d : Dev) : Bool := decide (d.fld PWR_BOOT_STATUS_PHASE < 7)

/-- The aligned stamp (R566). -/
def Dev.alignedStamp (d : Dev) : Nat := (d.now + d.fld FAB_STAMP_OFFSET_TCYCLES) % 2 ^ 64

/-- A partition that holds a rank of a job (R537). -/
def Dev.holdsRank (d : Dev) (p : Nat) : Bool := d.rankPart == some p

/-- The severity reported: RANK in a partition that holds no rank is FAULT (R576). -/
def Dev.severity (d : Dev) (f : Fault0) : Nat :=
  if f.severity == sevRank && decide (f.part < 64) && !d.holdsRank f.part then sevFault else f.severity

/-- The 64 bytes of a record, with byte 63 as 0 (R577). -/
def recordBytes (d : Dev) (f : Fault0) (seq : Nat) : List Byte :=
  let al := d.flag FAB_STATUS_ALIGNED
  let rp := d.rankPart
  leBytes 1 1 ++ leBytes 1 (d.severity f) ++ leBytes 2 f.kind ++ leBytes 2 f.rank ++ leBytes 1 f.part ++
  leBytes 1 (bv al + 2 * bv d.booting) ++ leBytes 8 (if al then d.alignedStamp else d.now) ++ leBytes 4 f.unit ++
  leBytes 4 seq ++
  leBytes 4 (match rp with | some p => d.fld (TRN_STEP_STEP p) | none => 0) ++
  leBytes 2 (match rp with | some p => d.fld (TRN_STEP_ATTEMPT p) | none => 0) ++
  leBytes 2 (d.fld FAB_INCARNATION_VALUE) ++ fit 24 f.detail ++ List.replicate 8 0

/-! ### Outbox, last records and boot log -/

/-- A record into the outbox of 32: full, a NOTICE is dropped, another record replaces the oldest NOTICE, or is
dropped where there is none; the flag tells whether a record was lost (R579). -/
def outboxPut (o : List OutRec) (r : OutRec) : List OutRec × Bool :=
  if o.length < 32 then (o ++ [r], false)
  else if r.severity = sevNotice then (o, true)
  else match o.find? fun x => x.severity == sevNotice with
    | some x => (o.erase x ++ [r], true)
    | none => (o, true)

/-- The record enters the outbox, and a drop is counted (R579). -/
def toOutbox (r : OutRec) : Act := .dyn fun d =>
  let x := outboxPut d.eng.recs.outbox r
  .all [.eng fun e => { e with recs := { e.recs with outbox := x.1 } },
    Act.when x.2 (Act.raise RES_STATUS_OUTBOX_FULL RES_COUNT_C_LOST)]

/-- Write 64 bytes into eight 64-bit registers. -/
def words64 (off : Nat) (bs : List Byte) : Act :=
  Act.each (List.range 8) fun i => .reg (off + 8 * i) (BitVec.ofNat 64 (leAt bs (8 * i) 8))

/-- An entry of the boot log (R120): 64 entries, further ones dropped and counted. -/
def bootLog (bs : List Byte) : Act := .dyn fun d =>
  let n := d.fld CFG_BOOT_LOG_COUNT_ENTRIES
  if n < 64 then .all [words64 (CFG_BOOT_LOG n 0) bs, Act.set CFG_BOOT_LOG_COUNT_ENTRIES (n + 1)]
  else Act.count CFG_BOOT_LOG_COUNT_LOST 1

/-- The FAULT_RECORD packets to the board manager and to the job manager, once each where they are one rank (R578). -/
def recordPackets (bs : List Byte) : Act := .dyn fun d =>
  let bm := d.boardManagerOf d.ownRank
  let jm := d.jobManagerRank
  let send := fun r => fabSend { pkt0 pkFaultRecord with dest := r, data := bs } 0
  if d.hasRanks then
    .all [match bm with | some r => send r | none => .skip,
      match jm with | some r => Act.when (bm != some r) (send r) | none => .skip]
  else .skip

/-- Make a fault record: it is counted, flagged, kept among the last 16, put into the outbox, sent to the managers and
to the event rings, and during boot over MCTP and into the boot log only; until the host event ring is enabled, the boot log
takes the record in its place (R102, R120, R577 to R580, R608). -/
def faultRecord (f : Fault0) : Act := .dyn fun d =>
  let seq := d.eng.recs.made + 1
  let sev := d.severity f
  let bs := recordBytes d f seq
  let k := d.fld RES_COUNT_A_RECORDS % 16
  .all [.eng fun e => { e with recs := { e.recs with made := seq } },
    Act.when (sev != sevNotice && d.fld MON_RING_CFG_AFTER_FAULT != 0)
      (mayRecord (.eng fun e => { e with mon := { e.mon with fault := true } })),
    ringEvent (ringOfUnit f.unit) evFault (f.kind + 65536 * seq),
    Act.raise RES_STATUS_RECORD RES_COUNT_A_RECORDS,
    Act.when (decide (sevRank ≤ sev)) (Act.raise RES_STATUS_RANK_FATAL RES_COUNT_A_RANK_FATAL),
    words64 (RES_RECORD k 0) bs,
    toOutbox { seq := seq, severity := sev, bytes := bs },
    Act.when (sev == sevDevice) (.eng fun e => { e with pwr := { e.pwr with alert1 := true } }),
    if d.booting then bootLog bs
    else .all [recordPackets bs, if d.eng.recs.ringSeen then post d.hostRing bs else bootLog bs,
      if f.part < 64 then
        match d.partRing f.part with
        | some q => post q bs
        | none => .skip
      else .skip]]

/-- The rank that a record of a partition concerns: this device's, where the partition is the rank partition. -/
def Dev.rankOf (d : Dev) (p : Nat) : Nat := if d.holdsRank p then d.ownRank else 0xFFFF

/-- A record of a kind about a partition (0xFF: device-wide) and a unit. -/
def faultOf (d : Dev) (kind part unit : Nat) (detail : List Byte) : Fault0 :=
  { kind := kind, severity := kindSeverity kind,
    rank := if part < 64 then d.rankOf part
      else if (kindSeverity kind == sevRank || kindSeverity kind == sevDevice) && d.hasRanks then d.ownRank
      else 0xFFFF,
    part := part, unit := unit, detail := detail }

/-- Send a record of a kind. -/
def report (kind part unit : Nat) (detail : List Byte) : Act := .dyn fun d =>
  faultRecord (faultOf d kind part unit detail)

/-! ### Fencing (R570) -/

/-- Fence a unit until the next base load, counted in PWR_BOOT_STATUS during boot (R122), else as a run-time fence; a unit that faults while an image is
applied is noted (R54). -/
def fence (u : Nat) : Act := .dyn fun d =>
  let applying := d.fld CFG_IMAGE_STATUS_STATE == 5 || d.fld CFG_IMAGE_STATUS_STATE == 6
  if d.fenced u then .skip
  else .all [.eng fun e => { e with
      cfg := { e.cfg with fences := e.cfg.fences ++ [u] }
      img := { e.img with newFences := if applying then e.img.newFences ++ [u] else e.img.newFences } },
    ringEvent (ringOfUnit u) evFence u,
    if d.booting then Act.count PWR_BOOT_STATUS_FENCED 1 else Act.add RES_COUNT_B_FENCES 1]

end Sys2Proof.Machine
end

