-- ==== Sys2Proof/Machine/Measure.lean ====
section
/-! DEFINITION. Measurement registers and their log (R618 to R621), and the check of a file's signature (R616). -/

namespace Sys2Proof.Machine

/-- The 32 bytes of a digest. -/
def digestBytes (h : BitVec 256) : List Byte := leBytes 32 h.toNat

/-- SM3 as bytes. -/
def sm3 (bs : List Byte) : List Byte := digestBytes (Config.sm3 bs)

/-- A measurement register's 32 bytes. -/
def Dev.meas (d : Dev) (k : Nat) : List Byte :=
  ((List.range 4).map fun i => leBytes 8 (d.reg (SEC_MEAS k i)).toNat).flatten

/-- The log entry of an extension (R621). -/
def logEntry (d : Dev) (k ty : Nat) (dg : List Byte) : List Byte :=
  leBytes 2 ty ++ leBytes 1 k ++ [0] ++ leBytes 4 d.eng.sec.logSeq ++ leBytes 8 d.now ++ fit 32 dg ++
  List.replicate 16 0

/-- Extend register k by an event: MRk becomes SM3(MRk, TYPE, D), and an entry goes to the log unless 256 are
unreleased (R618, R621). -/
def extend (k ty : Nat) (dg : List Byte) : Act := .dyn fun d =>
  let v := sm3 (d.meas k ++ leBytes 4 ty ++ fit 32 dg)
  let seq := d.eng.sec.logSeq
  .all [Act.each (List.range 4) fun i => .reg (SEC_MEAS k i) (BitVec.ofNat 64 (leAt v (8 * i) 8)),
    if seq - d.fld SEC_LOG_HEAD_SEQ < 256 then words64 (SEC_LOG (seq % 256) 0) (logEntry d k ty dg)
    else Act.raise SEC_STATUS_LOG_LOST SEC_COUNT_LOG_LOST,
    .eng fun e => { e with sec := { e.sec with logSeq := seq + 1 } }]

/-- The signature of a file verifies: an entry carries its SIGNER_ID, allows its KIND and its key verifies (R616). -/
def Dev.verifies (d : Dev) (kind signer : Nat) (msg sig : List Byte) : Bool :=
  let need := match kind with
    | 0 => 1
    | 1 => 2
    | _ => 0
  d.eng.sec.signers.any fun s => s.id == signer && bit s.kinds need && Config.sm2Verify s.pubkey msg sig

end Sys2Proof.Machine
end

