-- ==== Sys2Proof/Machine/Memory.lean ====
section
/-! DEFINITION. Device memory as its homes serve it (14, 15, 18): versions of open epochs, poison, fenced channels,
frozen images, host-held lines and mirrors. -/

namespace Sys2Proof.Machine

/-! ### Epochs of a partition (R440, R444, R446) -/

/-- An epoch value is job-wide (R440). -/
def jobWide (e : Nat) : Bool := bit e 31

/-- The slot of a partition that holds an open epoch. -/
def Dev.epochSlot (d : Dev) (p e : Nat) : Option Nat :=
  [0, 1, 2, 3].find? fun k => d.flag (TRN_PROOF_SLOT_VALID p k) && d.fld (TRN_PROOF_SLOT_EPOCH p k) == e

def Dev.epochOpen (d : Dev) (p e : Nat) : Bool := (d.epochSlot p e).isSome

/-- The epoch whose version a task's device accesses see: none for committed memory (R447, R449). -/
def Dev.taskView (d : Dev) (id : Nat) : Option Nat :=
  match d.task (d.ownerOf id) with
  | some t => t.epoch
  | none => none

/-! ### Reading -/

/-- The version of a granule that a view sees. -/
def Dev.version (d : Dev) (p : Nat) (view : Option Nat) (gran : Nat) : Option Version :=
  match view with
  | none => none
  | some e => d.eng.dune.versions.find? fun v => v.part == p && v.epoch == e && v.gran == gran

/-- One byte of a partition's memory as a view sees it (R451). -/
def Dev.viewByte (d : Dev) (p : Nat) (view : Option Nat) (o : Nat) : Byte :=
  match d.version p view (o / 4096) with
  | some v => Store.get zeroByte (o % 4096) v.data
  | none => d.byte (memKey p o)

def Dev.viewBytes (d : Dev) (p : Nat) (view : Option Nat) (o n : Nat) : List Byte :=
  (List.range n).map fun i => d.viewByte p view (o + i)

/-- A line's key among the poisoned lines. -/
def lineKey (p o : Nat) : Nat := memKey p o / 64

/-- The offsets of the lines that n bytes at o touch. -/
def linesOf (o n : Nat) : List Nat :=
  if n = 0 then [] else (List.range ((o + n - 1) / 64 - o / 64 + 1)).map fun i => (o / 64 + i) * 64

/-- A line reads as poison: its channel is fenced, or the line is poisoned in the view (R163, R477). -/
def Dev.linePoison (d : Dev) (p : Nat) (view : Option Nat) (o : Nat) : Bool :=
  d.chanFenced (d.chanOf p o) ||
  (match d.version p view (o / 4096) with
   | some v => bit v.poison (o % 4096 / 64)
   | none => d.eng.poison.contains (lineKey p o))

/-- Some byte of a range reads as poison. -/
def Dev.poisoned (d : Dev) (p : Nat) (view : Option Nat) (o n : Nat) : Bool :=
  (linesOf o n).any fun l => d.linePoison p view l

/-- The range lies in the memory a partition presents (R470). -/
def Dev.inMemory (d : Dev) (p o n : Nat) : Bool := d.formed p && decide (o + n ≤ d.presented p)

/-- The counters of reading a range: lines read, and accesses of a fenced channel (R477, R494). -/
def countRead (p o n : Nat) : Act := .dyn fun d =>
  Act.each (linesOf o n) fun l =>
    let c := d.chanOf p l
    .all [Act.add (DUN_TRAFFIC_READ_LINES (c / 16) (c % 16)) 1,
      Act.when (d.chanFenced c) (Act.add (DUN_ECC_COUNT_POISONED (c / 16) (c % 16)) 1)]

/-! ### Lines that the host holds (R138 to R141) -/

/-- How the host holds a device line (R139). -/
def Dev.hostHolds (d : Dev) (key : Nat) : Option Holder :=
  match d.eng.axl.dir.find? fun x => x.1 == key with
  | some x => some x.2
  | none => none

/-- The snoop of a line that has not been answered. -/
def Dev.recallOf (d : Dev) (key : Nat) : Option Recall := d.eng.axl.recalls.find? fun r => r.line == key

/-- A snoop of the line has not been answered. -/
def Dev.recalling (d : Dev) (key : Nat) : Bool := d.eng.axl.recalls.any fun r => r.line == key

/-- The host address of a device line (R147). -/
def Dev.hostAddr (d : Dev) (key : Nat) : Nat := d.fld AXL_MEM_BAR_BASE + key * 64

/-- A snoop goes out under a free TAG; without one it waits (R133, R137). -/
def sendSnoop (r : Recall) : Act := .dyn fun d =>
  match d.eng.axl.freeTag with
  | none => .skip
  | some t => .seq (.eng fun e => { e with axl := e.axl.updRecall r.line fun x => { x with tag := some t } })
      (axlSend { Msg.mk0 (if r.inv then opSnpInv else opSnpShare) with
        tag := t, part := r.line / 2 ^ 34, addr := d.hostAddr r.line })

/-- Snoop a device line that the host holds (R141). While a snoop of it is outstanding none goes out; a SNP_INV is then owed
behind a SNP_SHARE (R138, R146). -/
def snoop (key : Nat) (share : Bool) : Act := .dyn fun d =>
  match d.recallOf key with
  | some r => Act.when (!share && !r.inv)
      (.eng fun e => { e with axl := e.axl.updRecall key fun x => { x with due := true } })
  | none =>
    let r : Recall := { line := key, tag := none, inv := !share, due := false, answered := false }
    .seq (.eng fun e => { e with axl := { e.axl with recalls := e.axl.recalls ++ [r] } }) (sendSnoop r)

/-- A TAG has become free: the first snoop that waits for one goes out. -/
def nextSnoop : Act := .dyn fun d =>
  match d.eng.axl.recalls.find? fun r => r.tag.isNone with
  | some r => sendSnoop r
  | none => .skip

/-- Lines of a range that the host holds in E or M, or whose snoop has not been answered. -/
def Dev.hostBusy (d : Dev) (p o n : Nat) : List Nat :=
  let inside := fun k : Nat => decide (lineKey p o ≤ k) && decide (k * 64 < memKey p o + n)
  ((d.eng.axl.dir.filter fun x => x.2 == .exclusive && inside x.1).map fun x => x.1) ++
    (d.eng.axl.recalls.map Recall.line).filter inside

/-- A device read of lines that the host holds in E or M waits for their snoop: the snoops go out, and the command that
reads is given again later (R138, R141; log 14). -/
def afterSnoop (ranges : List (Nat × Nat × Nat)) (k : Act) : Act := .dyn fun d =>
  let ls := (ranges.map fun r => d.hostBusy r.1 r.2.1 r.2.2).flatten
  if ls = [] then k else Act.each ls fun x => snoop x true

/-- A transaction that waits at the homes concerns a line: it is for it, or waits for its recall, or is a write into the
same granule of an epoch's version (R138, R450). -/
def Dev.concerns (d : Dev) (h : HomeWait) (view : Option Nat) (key : Nat) : Bool :=
  h.line == key || (h.msg.any fun m => d.msgLine m == some key) ||
  (h.view.isSome && h.view == view && h.line / 64 == key / 64)

/-- Some transaction on a line has not finished that came before the number `after` was given out: a snoop of it, one that
waits at the homes, or a demand access whose data have not arrived (R138). -/
def Dev.lineBusyBefore (d : Dev) (view : Option Nat) (key after : Nat) : Bool :=
  d.recalling key || (d.eng.axl.home.any fun h => decide (h.after ≤ after) && d.concerns h view key) ||
  (d.eng.memWaits.any fun w => decide (w.id < after) && w.want.any fun x => !x.host && x.line == key)

/-- A line on which an earlier transaction has not finished (R138). -/
def Dev.lineBusy (d : Dev) (key : Nat) : Bool := d.lineBusyBefore none key d.eng.nextTask

/-! ### Mirror windows (R587) -/

/-- Mirror window k covers a granule with its LOCAL range. -/
def Dev.localWin (d : Dev) (g k : Nat) : Bool :=
  d.flag (RES_MIRROR_LOCAL_EN k) && decide (d.fld (RES_MIRROR_LOCAL_LOCAL k) ≤ g) &&
  decide (g < d.fld (RES_MIRROR_LOCAL_LOCAL k) + d.fld (RES_MIRROR_PAGES_PAGES k))

def Dev.remoteWin (d : Dev) (g k : Nat) : Bool :=
  d.flag (RES_MIRROR_LOCAL_EN k) && decide (d.fld (RES_MIRROR_REMOTE_REMOTE k) ≤ g) &&
  decide (g < d.fld (RES_MIRROR_REMOTE_REMOTE k) + d.fld (RES_MIRROR_PAGES_PAGES k))

/-- The granule at the partner that mirrors a local granule: REMOTE + (offset - LOCAL). -/
def Dev.mirrorTarget (d : Dev) (g : Nat) : Option Nat :=
  match [0, 1, 2, 3].find? (d.localWin g) with
  | some k => some (d.fld (RES_MIRROR_REMOTE_REMOTE k) + (g - d.fld (RES_MIRROR_LOCAL_LOCAL k)))
  | none => none

/-- The granule at the spare that holds what this device keeps in a REMOTE range (R595). -/
def Dev.spareTarget (d : Dev) (g : Nat) : Option Nat :=
  match [0, 1, 2, 3].find? (d.remoteWin g) with
  | some k => some (d.fld (RES_MIRROR_LOCAL_LOCAL k) + (g - d.fld (RES_MIRROR_REMOTE_REMOTE k)))
  | none => none

/-- A fill runs or has finished: live mirroring to the spare (R595). -/
def Dev.filling (d : Dev) : Bool := d.fld RES_FILL_STATUS_STATE == 1 || d.fld RES_FILL_STATUS_STATE == 2

/-- Where a write into a granule of the rank partition is mirrored: to the partner, unless mirroring is suspended and
no fill runs; a REMOTE range only during a fill (R587, R591, R595). -/
def Dev.mirrorOf (d : Dev) (p g : Nat) : Option Nat :=
  if !d.holdsRank p then none
  else match d.mirrorTarget g with
    | some t => if d.flag RES_STATUS_MIRROR_SUSPENDED && !d.filling then none else some t
    | none => if d.filling then d.spareTarget g else none

/-- The MIRROR packet of a granule: a line mask, 8 reserved bytes and the current content of the lines (R589). -/
def mirrorPacket (d : Dev) (p g target mask epoch dest : Nat) : Pkt :=
  let view := if epoch = 0 then none else some epoch
  let ls := upTo 64 (bit mask)
  { pkt0 pkMirror with
    dest := dest, epoch := epoch, addr := target * 4096,
    poison := ls.any fun l => d.linePoison p view (g * 4096 + l * 64),
    data := leBytes 8 mask ++ List.replicate 8 0 ++
      (ls.map fun l => d.viewBytes p view (g * 4096 + l * 64) 64).flatten }

/-- Send the next MIRROR packet of a granule to a rank, where none is unacknowledged (R589); lines that the host holds in E
or M are asked back first, and the packet goes once they are back (R141). -/
def mirrorPump (p g target dest : Nat) : Act := .dyn fun d =>
  let here := fun m : Mirror => m.gran == g && m.dest == dest
  if d.eng.dune.mirrors.any fun m => here m && m.sent != 0 then .skip
  else match d.eng.dune.mirrors.find? fun m => here m && m.next != 0 with
    | none => .skip
    | some m =>
      let held := if m.epoch = 0 then (d.hostBusy p (g * 4096) 4096).filter fun k => bit m.next (k % 64) else []
      if held != [] then Act.each held fun k => snoop k true
      else .all [.eng fun en => { en with dune := { en.dune with
          mirrors := en.dune.mirrors.map fun x =>
            if x == m then { x with sent := x.next, tasks := x.later, next := 0, later := [] } else x } },
        fabSend (mirrorPacket d p g target m.next m.epoch dest) 0]

/-- The granule at its destination that a mirrored granule goes to. -/
def Dev.mirrorAddr (d : Dev) (g : Nat) : Nat := ((d.mirrorTarget g).or (d.spareTarget g)).getD 0

/-- The MIRROR packets that may go out now. -/
def mirrorRetry : Act := .dyn fun d =>
  Act.each (d.eng.dune.mirrors.filter fun m => m.next != 0 && m.sent == 0) fun m =>
    mirrorPump ((d.rankPart).getD 0) m.gran (d.mirrorAddr m.gran) m.dest

/-- A write of lines of a granule goes to the mirror: at once where no packet of the granule to that rank is
unacknowledged, otherwise gathered into the next one (R589, R590). -/
def mirrorLines (p g mask : Nat) (view : Option Nat) (task : Nat) : Act := .dyn fun d =>
  match d.mirrorOf p g with
  | none => .skip
  | some target =>
    let e := match view with
      | some e => if jobWide e then e else 0
      | none => 0
    let dest := d.partner
    let same := fun m : Mirror => m.gran == g && m.dest == dest && m.epoch == e
    .all [.eng fun en => { en with dune := { en.dune with
        mirrors := if en.dune.mirrors.any same
          then en.dune.mirrors.map fun m =>
            if same m then { m with next := m.next ||| mask, later := task :: m.later } else m
          else en.dune.mirrors ++
            [{ gran := g, epoch := e, dest := dest, sent := 0, tasks := [], next := mask, later := [task] }] } },
      mirrorPump p g target dest]

/-! ### Frozen images (R487 to R489) -/

def Dev.frozenOf (d : Dev) (p : Nat) : Option Frozen := d.eng.dune.frozen.find? fun f => f.part == p

/-- The committed bytes of a granule, by offset within it. -/
def Dev.granBytes (d : Dev) (p g : Nat) : Store Byte :=
  (d.mem.filter fun kv => decide (memKey p (g * 4096) ≤ kv.1) && decide (kv.1 < memKey p (g * 4096) + 4096)).map
    fun kv => (kv.1 - memKey p (g * 4096), kv.2)

/-- Entries of a partition's frozen image on a channel. -/
def Dev.frozenOn (d : Dev) (p c : Nat) : Nat :=
  match d.frozenOf p with
  | some f => (f.copies.filter fun x => d.chanOf p (x.gran * 4096) == c).length
  | none => 0

/-- Versions on a channel. -/
def Dev.proofOn (d : Dev) (c : Nat) : Nat :=
  (d.eng.dune.versions.filter fun v => d.chanOf v.part (v.gran * 4096) == c).length

/-- Granules whose frozen content the snapshot engine still has to read: those of the enabled LOCAL ranges that have
no frozen copy yet (R602). -/
def Dev.mustPreserve (d : Dev) (p g : Nat) : Bool :=
  match d.frozenOf p with
  | some f => [0, 1, 2, 3].any (d.localWin g) && !(f.copies.any fun x => x.gran == g)
  | none => false

/-- The end of a snapshot that is being written, without step 4 of R603: SNAPSHOT_ABANDONED and the error. -/
def snapshotFails (error : Nat) : Act := .dyn fun d =>
  if d.fld RES_SNAP_STATUS_STATE == 2 then
    let p := (d.rankPart).getD 0
    let step := match d.frozenOf p with
      | some f => f.step
      | none => 0
    .all [Act.set RES_SNAP_STATUS_ERROR error, snapState 0,
      .eng fun e => { e with dune := { e.dune with frozen := e.dune.frozen.filter fun f => f.part != p } },
      report fkSnapshotAbandoned p 0
        (leBytes 4 step ++ leBytes 1 (1 - d.fld RES_SNAP_STATUS_AREA) ++ leBytes 1 error)]
  else .skip

/-- Abandon a partition's frozen image: its entries are freed, the engine is told, the abandon is counted (R489). -/
def abandonFrozen (p : Nat) : Act := .dyn fun d =>
  match d.frozenOf p with
  | none => .skip
  | some _ => .all [snapshotFails 6,
      .eng fun e => { e with dune := { e.dune with frozen := e.dune.frozen.filter fun f => f.part != p } },
      Act.add CFG_VERSION_CTRL_ABANDONS 1]

/-- Preserve a granule before its committed content changes (R488), or abandon the image where the channel's limit
would be exceeded (R489). -/
def preserve (p g : Nat) : Act := .dyn fun d =>
  if !d.mustPreserve p g then .skip
  else
    let c := d.chanOf p (g * 4096)
    let share := poolVersion d.eng.cfg.base
    if d.fld CFG_VERSION_CTRL_SNAP_LIMIT * share < (d.frozenOn p c + 1) * 16 ||
        share ≤ d.frozenOn p c + d.proofOn c then abandonFrozen p
    else .eng fun e => { e with dune := { e.dune with
        frozen := e.dune.frozen.map fun f =>
          if f.part == p then { f with copies := f.copies ++ [{ gran := g, data := d.granBytes p g }] } else f } }

/-! ### Writing -/

/-- Mark or clear the poison of committed lines. -/
def setPoison (p o : Nat) (b : Bool) : Act := .eng fun e =>
  { e with poison := (if b then [lineKey p o] else []) ++ e.poison.filter fun k => k != lineKey p o }

/-- A write of an origin is mirrored: writes into a REMOTE range are not mirrored further, and an epoch's mirror packets
have gone already (R460, R587, R589). -/
def Origin.mirrored : Origin → Bool
  | .ordinary | .localInstall _ => true
  | .jobInstall _ | .live | .fill => false

/-- A live packet or a commit install makes a line fresh (R596). -/
def Origin.freshens : Origin → Bool
  | .jobInstall _ | .localInstall _ | .live => true
  | .ordinary | .fill => false

/-- The write moves data over the channel; a granule that is remapped in place moves none (R454, R494). -/
def Origin.moves : Origin → Bool
  | .jobInstall m | .localInstall m => m
  | .ordinary | .live | .fill => true

/-- The write installs a line of an epoch that commits. -/
def Origin.installs : Origin → Bool
  | .jobInstall _ | .localInstall _ => true
  | .ordinary | .live | .fill => false

/-- A line of the rank partition becomes fresh (R596). -/
def freshen (p o : Nat) : Act := .dyn fun d =>
  Act.when (d.holdsRank p) (.eng fun e => { e with dune := { e.dune with
      fresh := Store.put zeroNat (o / 4096) (Store.get zeroNat (o / 4096) e.dune.fresh ||| 2 ^ (o % 4096 / 64))
        e.dune.fresh } })

/-- Apply bytes within one line of committed memory, at its home: preserved first, mirrored after; a whole line clears
poison, poisoned data sets it, and a part of a poisoned line leaves it poisoned (R163, R488, R587, R678). -/
def commitLine (p o : Nat) (bs : List Byte) (poison : Bool) (origin : Origin) (task : Nat) : Act := .dyn fun d =>
  let c := d.chanOf p o
  if d.chanFenced c then Act.add (DUN_ECC_COUNT_POISONED (c / 16) (c % 16)) 1
  else .all [preserve p (o / 4096), Act.bytes (memKey p o) bs,
    if poison then setPoison p o true
    else if bs.length = 64 then setPoison p o false
    else .skip,
    Act.when origin.moves (Act.add (DUN_TRAFFIC_WRITE_LINES (c / 16) (c % 16)) 1),
    Act.when origin.freshens (freshen p o),
    Act.when origin.mirrored (mirrorLines p (o / 4096) (2 ^ (o % 4096 / 64)) none task)]

/-- The copy of a granule that an epoch's first write makes (R450). -/
def Dev.newVersion (d : Dev) (p e g : Nat) : Version :=
  { part := p, epoch := e, gran := g, mask := 0,
    poison := (upTo 64 fun l => d.eng.poison.contains (lineKey p (g * 4096 + l * 64))).foldl (fun m l => m + 2 ^ l) 0,
    data := d.granBytes p g, copied := d.granBytes p g }

/-- Apply bytes within one line to an epoch's version. -/
def Version.write (v : Version) (o : Nat) (bs : List Byte) (poison : Bool) : Version :=
  let l := o % 4096 / 64
  { v with
    mask := v.mask ||| 2 ^ l
    poison := if poison then v.poison ||| 2 ^ l
      else if bs.length = 64 then (if bit v.poison l then v.poison - 2 ^ l else v.poison)
      else v.poison
    data := (List.range bs.length).foldl (fun s i => Store.put zeroByte (o % 4096 + i) (bs.getD i 0) s) v.data }

/-- A write by an epoch: into its version of the granule, which the first write makes; a version share that is full
abandons a frozen image first, and still full ends the writing task with VERSION_FULL (R450, R456, R489). -/
def versionLine (p e o : Nat) (bs : List Byte) (poison mirrored : Bool) (task : Nat) : Act := .dyn fun d0 =>
  let g := o / 4096
  let c := d0.chanOf p o
  let here := fun v : Version => v.part == p && v.epoch == e && v.gran == g
  let full := fun d : Dev => decide (poolVersion d.eng.cfg.base ≤ d.frozenOn p c + d.proofOn c)
  let apply : Act := .all [.eng fun en => { en with dune := { en.dune with
      versions := en.dune.versions.map fun v => if here v then v.write o bs poison else v } },
    Act.add (DUN_TRAFFIC_WRITE_LINES (c / 16) (c % 16)) 1,
    Act.when (jobWide e && mirrored) (mirrorLines p g (2 ^ (o % 4096 / 64)) (some e) task)]
  if d0.chanFenced c then Act.add (DUN_ECC_COUNT_POISONED (c / 16) (c % 16)) 1
  else if !d0.epochOpen p e then .skip
  else if d0.eng.dune.versions.any here then apply
  else .all [Act.when (full d0 && decide (0 < d0.frozenOn p c)) (abandonFrozen p),
    .dyn fun d =>
      if full d then .all [Act.add (TRN_PROOF_VERSION_FULL p) 1, endTask task stFault fkVersionFull]
      else .all [.eng fun en => { en with dune := { en.dune with
            versions := en.dune.versions ++ [d.newVersion p e g] } },
          Act.add (TRN_PROOF_VERSION_GRANULES p) 1, apply]]

/-- The tag under which a view's copy of a line stands in the folio caches: the epoch where it has a version of the granule,
none for committed memory (R455). -/
def Dev.folioTag (d : Dev) (view : Option Nat) (key : Nat) : Option Nat :=
  if (d.version (key / 2 ^ 34) view (key % 2 ^ 34 / 64)).isSome then view else none

/-- The other folios' copies of a device line are invalidated before the home accepts a store (R472). -/
def invalidateFolios (view : Option Nat) (key folio : Nat) : Act := .dyn fun d => .eng fun e =>
  { e with dune := { e.dune with
        folios := e.dune.folios.filterMap fun x =>
          if x.key == key && x.view == d.folioTag view key then
            (if bit x.folios folio then some { x with folios := 2 ^ folio } else none)
          else some x } }

/-- A write that has to wait at its line's home. -/
def waitHome (origin : Origin) (p : Nat) (view : Option Nat) (o : Nat) (bs : List Byte) (poison : Bool) (task after : Nat) :
    Act := .eng fun e => { e with axl := { e.axl with home := e.axl.home ++
      [{ line := lineKey p o, after := after, view := view, ecc := .clean, msg := none, poison := poison, origin := origin,
         task := task, write := (List.range bs.length).map fun i => (o % 64 + i, bs.getD i 0) }] } }

/-- Write bytes within one line from an origin, behind what came before the demand access numbered `after`: a line the host
holds is recalled first, and the write waits at the home until the host has answered; the write of an epoch that makes a
version waits for the lines of the granule that the host holds in E or M (R138, R141, R450). -/
def lineWriteAfter (after : Nat) (origin : Origin) (p : Nat) (view : Option Nat) (o : Nat) (bs : List Byte) (poison : Bool)
    (task : Nat) : Act := .dyn fun d =>
  let key := lineKey p o
  match view with
  | some e =>
    let lines := if (d.version p view (o / 4096)).isSome || !d.epochOpen p e then []
      else d.hostBusy p (o / 4096 * 4096) 4096
    if lines != [] || d.lineBusyBefore view key after then
      .seq (Act.each lines fun l => snoop l true) (waitHome origin p view o bs poison task after)
    else versionLine p e o bs poison origin.mirrored task
  | none =>
    if (d.hostHolds key).isSome || d.lineBusyBefore none key after then
      .seq (Act.when (d.hostHolds key).isSome (snoop key false)) (waitHome origin p view o bs poison task after)
    else commitLine p o bs poison origin task

/-- Write bytes within one line from an origin, behind all that came before. -/
def lineWriteFrom (origin : Origin) (p : Nat) (view : Option Nat) (o : Nat) (bs : List Byte) (poison : Bool)
    (task : Nat) : Act := .dyn fun d => lineWriteAfter d.eng.nextTask origin p view o bs poison task

/-- An ordinary write within one line. -/
def lineWrite : (p : Nat) → (view : Option Nat) → (o : Nat) → (bs : List Byte) → (poison : Bool) → (task : Nat) → Act :=
  lineWriteFrom .ordinary

/-- Cut a write at line boundaries: offset and bytes of each piece. -/
def pieces : Nat → Nat → List Byte → List (Nat × List Byte)
  | 0, _, _ => []
  | n + 1, o, bs =>
    if bs = [] then []
    else
      let k := 64 - o % 64
      (o, bs.take k) :: pieces n (o + k) (bs.drop k)

/-- Write a byte string to a partition's memory as a view sees it, line by line in ascending order. -/
def memWrite (p : Nat) (view : Option Nat) (o : Nat) (bs : List Byte) (poison : Bool) (task : Nat) : Act :=
  Act.each (pieces (bs.length / 64 + 2) o bs) fun x => lineWrite p view x.1 x.2 poison task

end Sys2Proof.Machine
end

