-- ==== Sys2Proof/Machine/Tasks.lean ====
section
/-! DEFINITION. Tasks (06): the fields of a descriptor, its checks, the dispatcher's choice among rings, the start and
the completion of a task. -/

namespace Sys2Proof.Machine

/-! ### The descriptor (R183, R184) -/

def dKind (b : List Byte) : Nat := leAt b 0 1
def dFlags (b : List Byte) : Nat := leAt b 1 1
def dComplete (b : List Byte) : Bool := bit (dFlags b) 0
def dOrdered (b : List Byte) : Bool := bit (dFlags b) 1
def dProof (b : List Byte) : Bool := bit (dFlags b) 2
def dService (b : List Byte) : Nat := leAt b 2 1
def dCq (b : List Byte) : Nat := leAt b 4 4 % 2 ^ 18
def dTag (b : List Byte) : Nat := leAt b 8 4
def dWait (b : List Byte) : Nat := leAt b 12 2
def dDone (b : List Byte) : Nat := leAt b 14 2
def dWaitValue (b : List Byte) : Nat := leAt b 16 4
def dEpoch (b : List Byte) : Nat := leAt b 20 4
def dArg (b : List Byte) (i : Nat) : Nat := leAt b (24 + 8 * i) 8

def kdKernel : Nat := 1
def kdService : Nat := 2
def kdCopy : Nat := 3
def kdSend : Nat := 4
def kdMarker : Nat := 5

/-- GATHERINGS, CARAVANS and ROLE of a KERNEL descriptor. -/
def dGatherings (b : List Byte) : Nat := field (dArg b 1) 0 32
def dCaravans (b : List Byte) : Nat := field (dArg b 1) 32 8
def dRole (b : List Byte) : Nat := field (dArg b 1) 40 1

/-- The descriptor kinds a ring of a kind may hold (R174). -/
def kindAllowed (ringKind k : Nat) : Bool :=
  match ringKind with
  | 1 => [kdKernel, kdService, kdMarker].contains k
  | 3 => [kdCopy, kdMarker].contains k
  | 4 => [kdSend, kdMarker].contains k
  | _ => false

/-- The arguments of a service (R111, R185): formats are 1 BF16, 2 FP16, 3 E4M3, 4 INT8, 5 FP32. -/
def serviceArgsOk (b : List Byte) : Bool :=
  let a := dArg b
  let small := fun (v f : Nat) => v / 65536 == 0 && (f == 1 || f == 5) && v / 256 != 0
  let dim := fun v : Nat => decide (1 ≤ v) && decide (v ≤ 65536)
  match dService b with
  | 1 => a 3 == 0 && a 4 == 0
  | 2 => a 3 == 0 && a 4 == 0
  | 3 => decide (1 ≤ a 2) && decide (a 2 ≤ 255) && a 3 == 0 && a 4 == 0
  | 4 => dim (field (a 3) 0 17) && dim (field (a 3) 17 17) && dim (field (a 3) 34 17) && a 3 / 2 ^ 51 == 0 &&
      decide (1 ≤ field (a 4) 0 8) && decide (field (a 4) 0 8 ≤ 4) && decide (a 4 < 1024)
  | 5 => small (a 2) (field (a 2) 0 8) && a 3 == 0 && a 4 == 0
  | 6 => decide (field (a 2) 0 8 < 8) && decide (a 2 < 65536) && decide (256 ≤ a 2) && a 3 == 0 && a 4 == 0
  | 7 => decide (1 ≤ a 3) && decide (a 3 < 256) && a 4 == 0
  | 8 => small (a 3) (field (a 3) 0 8) && a 4 == 0
  | _ => false

/-- Reserved bits of the argument words are 0, and the values that are always needed lie in range (R183 to R185,
R551). -/
def argsOk (b : List Byte) : Bool :=
  let k := dKind b
  if k == kdKernel then
    dArg b 1 / 2 ^ 41 == 0 && decide (1 ≤ dGatherings b) && decide (1 ≤ dCaravans b) && decide (dCaravans b ≤ 16)
  else if k == kdMarker then [0, 1, 2, 3, 4].all fun i => dArg b i == 0
  else if k == kdCopy then dArg b 3 == 0 && dArg b 4 == 0
  else if k == kdService then serviceArgsOk b
  else if k == kdSend then
    let op := field (dArg b 0) 0 8
    decide (1 ≤ op) && decide (op ≤ 5) && field (dArg b 0) 9 7 == 0 && field (dArg b 0) 38 26 == 0 &&
    (if bit (dArg b 0) 8 then field (dArg b 0) 19 13 == 0 else field (dArg b 0) 32 6 == 0) &&
    (if op ≤ 3 then decide (1 ≤ dArg b 3) && decide (dArg b 3 ≤ 2 ^ 40)
      else dArg b 1 == 0 &&
        (if op == 4 then decide (dArg b 2 < 2 ^ 16) && decide (dArg b 3 < 2 ^ 32)
          else decide (dArg b 2 < 2 ^ 18) && decide (dArg b 3 < 2 ^ 16))) &&
    (if op == 3 then decide (dArg b 4 < 2) else dArg b 4 == 0)
  else true

/-- Whether CQ names a completion queue of the partition; the answer is its absolute number (R187). A descriptor on a service
queue in DEFAULT names its completion queue too (R110; log 107). The bits beside the field are reserved ones. -/
def Dev.cqOf (d : Dev) (p : Nat) (b : List Byte) : Option Nat := d.relQueue p (dCq b) 2

/-- The descriptor breaks a rule of R187 (beside an invalid CQ). -/
def Dev.badDescriptor (d : Dev) (p q : Nat) (b : List Byte) : Bool :=
  let k := dKind b
  !kindAllowed (d.queueKind q) k || leAt b 3 1 != 0 || leAt b 4 4 / 2 ^ 18 != 0 || dFlags b / 8 != 0 ||
  (k != kdService && dService b != 0) ||
  (k == kdService && (dService b == 0 || decide (8 < dService b))) ||
  (!dProof b && dEpoch b != 0) ||
  (dWait b != 0xFFFF && (d.relTally p (dWait b)).isNone) ||
  (dDone b != 0xFFFF && (d.relTally p (dDone b)).isNone) ||
  !argsOk b ||
  (k == kdKernel && d.activeQuires p (dRole b) == [])

/-! ### Completion (R193 to R195) -/

/-- The 64 bytes of a completion record, phase not yet set (R194). -/
def completionRecord (d : Dev) (t : Task) : List Byte :=
  leBytes 1 (dKind t.desc) ++ leBytes 1 t.status ++ leBytes 2 (if t.status == stFault then t.fkind else 0) ++
  leBytes 4 (t.queue - firstQueue d.eng.cfg.base t.part) ++ leBytes 4 (dTag t.desc) ++ [0, 0, 0, 0] ++
  leBytes 8 t.res0 ++ leBytes 8 t.res1 ++ leBytes 8 t.res2 ++ leBytes 8 d.now ++ List.replicate 16 0

/-- The tally effect of a completion: OK adds 1, anything else sets FAULTED (R193, R195). -/
def doneTally (p : Nat) (b : List Byte) (ok : Bool) : Act := .dyn fun d =>
  if dDone b = 0xFFFF then .skip
  else match d.relTally p (dDone b) with
    | some t => if ok then tallyAdd t 1 else tallyFault t
    | none => .skip

/-- Steps 2 and 3 of a completion: DONE_TALLY, then the record where COMPLETE is 1 or the status is not OK. -/
def finishTask (t : Task) : Act := .dyn fun d =>
  .all [doneTally t.part t.desc (t.status == stOk),
    Act.when (t.status == stFault) (Act.raise (PART_STATUS_FAULT t.part) (PART_EVENT_COUNT_FAULTS t.part)),
    .eng fun e => { e with
      tasks := e.tasks.filter fun x => x.id != t.id
      owners := e.owners.filter fun kv => kv.2 != t.id },
    match d.cqOf t.part t.desc with
    | some cq => Act.when (dComplete t.desc || t.status != stOk) (.dyn fun d => post cq (completionRecord d t))
    | none => .skip]

/-- No access runs under a number that a test picks: host requests, writes waiting at a home, mirrors, packets, demand accesses (R152,
R193, R590). -/
def Dev.quietFor (d : Dev) (p : Nat → Bool) : Bool :=
  !(d.eng.axl.reqs.any fun r => p r.task) && !(d.eng.axl.reqWait.any fun r => p r.task) &&
  !(d.eng.axl.home.any fun h => p h.task) && !(d.eng.dune.mirrors.any fun m => m.tasks.any p || m.later.any p) &&
  !(d.eng.fab.e2e.any fun x => p x.task) && !(d.eng.fab.reqs.any fun x => p x.task) &&
  !(d.eng.fab.blocked.any fun x => p x.2) && !(d.eng.memWaits.any fun w => p w.id)

/-- No access of a task is outstanding, under its own number or one it owns. -/
def Dev.taskQuiet (d : Dev) (id : Nat) : Bool := d.quietFor fun n => d.ownerOf n == id

/-- An access, a copy, a row or a gather with a number of its own is still outstanding. -/
def Dev.busy (d : Dev) (id : Nat) : Bool := !d.quietFor fun n => n == id

/-- The caravans of a task, over all quires. -/
def Dev.caravansOf (d : Dev) (id : Nat) : List Caravan :=
  (d.eng.quires.map fun kv => kv.2.caravans.filter fun c => c.task == id).flatten

/-- All of a task's work has ended: it has faulted and its caravans have stopped, or every gathering has been placed
and has gone; another kind has done what it had to do (R193, R573). -/
def Dev.workEnded (d : Dev) (t : Task) : Bool :=
  if t.status != stOk then t.ended && (d.caravansOf t.id).all fun c => c.stopping
  else if dKind t.desc == kdKernel then t.next == dGatherings t.desc && d.caravansOf t.id == []
  else t.ended

/-! ### Dispatch (R188 to R192, R447) -/

/-- What becomes of a descriptor whose tally wait and epoch are looked at: 0 it can start, 1 it waits, 2 DEPENDENCY. -/
def Dev.epochGate (d : Dev) (p : Nat) (b : List Byte) : Nat :=
  if !dProof b then 0
  else
    let e := dEpoch b
    if d.epochOpen p e then 0
    else if !jobWide e then 2
    else
      let latest := d.fld (TRN_PROOF_JOB_LATEST p)
      let anyOpen := d.eng.proof.jobOpened.contains p
      let ahead := (e % 2 ^ 31 + 2 ^ 31 - latest) % 2 ^ 31
      let back := (latest + 2 ^ 31 - e % 2 ^ 31) % 2 ^ 31
      if !anyOpen || (decide (1 ≤ ahead) && decide (ahead ≤ 2 ^ 30)) then 1
      else if decide (1 ≤ back) && decide (back ≤ 16) && bit (d.fld (TRN_PROOF_JOB_OUTCOMES p)) (back - 1) then 0
      else 2

/-- How the wait on WAIT_TALLY of a descriptor stands now: 0 waits, 1 satisfied or none, 2 FAULTED (R188, R195). -/
def Dev.tallyGate (d : Dev) (p : Nat) (b : List Byte) : Nat :=
  if dWait b = 0xFFFF then 1
  else match d.relTally p (dWait b) with
    | some t =>
      if d.flag (TLY_VALUE_FAULTED t) then 2
      else if tallySat (d.fld (TLY_VALUE_VALUE t)) (dWaitValue b) then 1 else 0
    | none => 1

/-- No task of a ring is running, as an ORDERED descriptor needs (R188). -/
def Dev.orderedOk (d : Dev) (q : Nat) (b : List Byte) : Bool :=
  !dOrdered b || !(d.eng.tasks.any fun t => t.queue == q)

/-- A ring whose descriptor has been read and can start. -/
def Dev.startable (d : Dev) (q : Nat) : Bool :=
  match d.ring q with
  | { desc := some b, wait := w, .. } =>
    match d.queuePart q with
    | some p => d.ringEnabled q && w == 1 && d.epochGate p b == 0 && d.orderedOk q b
    | none => false
  | _ => false

/-- The ring the dispatcher takes among some: the one that has waited longest of those at PART_AGE (0: aging is off),
otherwise the highest priority, round-robin in ascending number after the ring of that priority that started last (R189,
R190). -/
def Dev.choose (d : Dev) (p : Nat) (last : (prio : Nat) → Nat) (qs : List Nat) : Option Nat :=
  let age := d.fld (PART_AGE_TCYCLES p)
  let aged := qs.filter fun q => age != 0 && decide (age ≤ d.now - (d.ring q).since)
  let best := fun (l : List Nat) (less : Nat → Nat → Bool) =>
    l.foldl (fun m q => match m with
      | none => some q
      | some x => if less q x then some q else some x) none
  if aged != [] then best aged fun a b => decide ((d.ring a).since < (d.ring b).since)
  else
    let turn := fun q => if last (d.fld (QUE_CFG_PRIORITY q)) < q then q else q + 2 ^ 20
    best qs fun a b =>
      decide (d.fld (QUE_CFG_PRIORITY b) < d.fld (QUE_CFG_PRIORITY a)) ||
      (d.fld (QUE_CFG_PRIORITY b) == d.fld (QUE_CFG_PRIORITY a) && decide (turn a < turn b))

/-- The partition takes work: formed, not stopped, not under reset, and no power-fail stop runs (R83, R93, R192). -/
def Dev.dispatching (d : Dev) (p : Nat) : Bool :=
  d.formed p && !d.flag (PART_CTRL_STOP p) && !bit (d.fld PWR_RESET_BUSY_PARTS) p && !d.eng.pwr.stopping

/-- The descriptor in slot HEAD of a ring: the one read already, the bytes in partition memory, or the bytes that the
host answers with (R175); none where the read is refused or finds poison (R674). -/
def Dev.descriptor (d : Dev) (p q : Nat) (fromHost : List Byte) : Option (List Byte) :=
  match (d.ring q).desc with
  | some b => some b
  | none =>
    let a := d.slotAddr q (d.fld (QUE_HEAD_HEAD q))
    if d.flag (QUE_BASE_LOC q) then
      if d.inMemory p a 64 && !d.poisoned p none a 64 then some (d.viewBytes p none a 64) else none
    else if d.axlUp && d.hostPermit p a 64 false then some (fit 64 fromHost) else none

/-- The slot at HEAD has been taken. -/
def takeSlot (q : Nat) : Act := .dyn fun d =>
  .all [Act.set (QUE_HEAD_HEAD q) ((d.fld (QUE_HEAD_HEAD q) + 1) % d.ringSize q), Act.add (QUE_COUNT_ITEMS q) 1,
    Act.set (QUE_STATUS_BLOCKED q) 0, updRing q fun r => { r with desc := none, wait := 0 }]

/-- A task made from a descriptor. -/
def Dev.newTask (d : Dev) (p q : Nat) (b : List Byte) : Task :=
  { id := d.eng.nextTask, part := p, queue := q, desc := b,
    epoch := if dProof b && d.epochOpen p (dEpoch b) then some (dEpoch b) else none, next := 0, ended := false, status := stOk, fkind := 0,
    header := [], step := d.fld (TRN_STEP_STEP p), attempt := d.fld (TRN_STEP_ATTEMPT p), res0 := 0, res1 := 0, res2 := 0 }

/-- A descriptor that completes without running (R187, R195). -/
def refuseDescriptor (p q : Nat) (b : List Byte) (status : Nat) : Act := .dyn fun d =>
  .all [takeSlot q, .eng fun e => { e with nextTask := e.nextTask + 1 },
    Act.when (d.cqOf p b).isNone (ringError q qeBadDescriptor),
    finishTask { d.newTask p q b with ended := true, status := status }]

/-- The group of rings that share a start per tcycle: submission, copy, fabric-send (R191). -/
def groupKey (p k : Nat) : Nat := p * 8 + k

/-- The ring of each priority in a group that started last (R189). -/
def Dev.lastStarted (d : Dev) (p k prio : Nat) : Nat := Store.get zeroNat (groupKey p k * 4 + prio) d.eng.rr

def startedRing (p k q : Nat) : Act := .dyn fun d => .eng fun e => { e with
  rr := Store.put zeroNat (groupKey p k * 4 + d.fld (QUE_CFG_PRIORITY q)) q e.rr
  tcyc := { e.tcyc with started := groupKey p k :: e.tcyc.started } }

/-- The slot that holds the next descriptor of a ring in partition memory. -/
def Dev.headRange (d : Dev) (p q : Nat) : List (Nat × Nat × Nat) :=
  if d.flag (QUE_BASE_LOC q) && (d.ring q).desc.isNone then [(p, d.slotAddr q (d.fld (QUE_HEAD_HEAD q)), 64)] else []

/-- Look at the descriptor at the head of a ring and start it where nothing holds it (R187 to R192, R447), at most one of its
group of rings in each tcycle. The
descriptor's kind must be the one asked for; a held descriptor stays in slot HEAD, also while the host gives back lines
that the start reads. -/
def dispatch (q : Nat) (fromHost : List Byte) (want : List Byte → Bool)
    (reads : Dev → Task → List (Nat × Nat × Nat)) (start : Task → Act) : Act := .dyn fun d =>
  match d.queuePart q with
  | none => .skip
  | some p =>
    if !d.dispatching p || !d.ringEnabled q || d.ringPending q == 0 then .skip
    else if ((d.headRange p q).map fun r => d.hostBusy r.1 r.2.1 r.2.2).flatten != [] then
      afterSnoop (d.headRange p q) .skip
    else match d.descriptor p q fromHost with
      | none => .skip
      | some b =>
        if !want b then .skip
        else if d.badDescriptor p q b || (d.cqOf p b).isNone then refuseDescriptor p q b stBadDescriptor
        else
          let r := d.ring q
          let w := if r.desc.isSome && r.wait != 0 then r.wait else d.tallyGate p b
          let since := if r.desc.isSome && r.wait == w then r.since else d.now
          let hold := fun (blocked : Bool) => Act.all
            [updRing q fun x => { x with desc := some b, wait := w, since := since },
              Act.setB (QUE_STATUS_BLOCKED q) blocked]
          if w == 2 || (w == 1 && d.epochGate p b == 2) then refuseDescriptor p q b stDependency
          else if w == 0 || d.epochGate p b == 1 then hold true
          else if !d.orderedOk q b then hold false
          else
            let k := d.queueKind q
            let rivals := (d.eng.rings.map fun kv => kv.1).filter fun x =>
              x != q && d.queuePart x == some p && d.queueKind x == k && d.startable x
            .all [hold false, .dyn fun d =>
              if d.eng.tcyc.started.contains (groupKey p k) || d.choose p (d.lastStarted p k) (q :: rivals) != some q then .skip
              else
                let t := d.newTask p q b
                afterSnoop (reads d t) (.all [takeSlot q,
                  .eng fun e => { e with
                    nextTask := e.nextTask + 1
                    tasks := e.tasks ++ [t] },
                  startedRing p k q, start t])]

end Sys2Proof.Machine
end

