-- ==== Sys2Proof/Machine/Copying.lean ====
section
/-! DEFINITION. Moving ranges of bytes (06, 04): the host address map of R186, writes to host memory, reads of host
lines, and the copy that COPY tasks, the COPY service and the access engine share. -/

namespace Sys2Proof.Machine

/-- Where an address range of the host address map lies for a partition (R186). -/
inductive Place where
  | mem (o : Nat)
  | host (a : Nat)
  | bad
  deriving DecidableEq, Repr

/-- The place of n bytes at an address, for reading or writing (R147, R150, R186). -/
def Dev.place (d : Dev) (p addr n : Nat) (write : Bool) : Place :=
  let mb := d.fld AXL_MEM_BAR_BASE
  let rb := d.fld AXL_REG_BAR_BASE
  let last := addr + n - 1
  let inMem := decide (mb ≤ addr) && decide (addr < mb + 2 ^ 46)
  let touchesMem := decide (addr < mb + 2 ^ 46) && decide (mb ≤ last)
  let touchesReg := decide (addr < rb + 2 ^ 27) && decide (rb ≤ last)
  if inMem then
    let o := (addr - mb) % 2 ^ 40
    if (addr - mb) / 2 ^ 40 == p && d.inMemory p o n then .mem o else .bad
  else if touchesMem || touchesReg then .bad
  else if d.hostPermit p addr n write then .host addr else .bad

/-- A range is host memory that the host windows refuse (R150). -/
def Dev.windowBars (d : Dev) (p addr n : Nat) (write : Bool) : Bool :=
  let outside := fun base size : Nat => !(decide (addr < base + size) && decide (base ≤ addr + n - 1))
  outside (d.fld AXL_MEM_BAR_BASE) (2 ^ 46) && outside (d.fld AXL_REG_BAR_BASE) (2 ^ 27) && !d.hostPermit p addr n write

/-- Write bytes that lie within one host line: WR_LINE for a whole line, WR_PART otherwise (R134, R142). While the link
is down the write is abandoned and its task faults with HOST_TIMEOUT (R164, R166). -/
def hostPiece (p addr : Nat) (bs : List Byte) (poison : Bool) (task : Nat) : Act := .dyn fun d =>
  if !d.axlUp then endTask task stFault fkHostTimeout
  else .all [dropHostLine (addr / 64),
    axlReq { Msg.mk0 (if bs.length = 64 then opWrLine else opWrPart) with
      part := p, addr := addr, len := bs.length, data := bs, poison := poison } (.write task) task]

/-- Write a byte string to host memory, line by line. -/
def hostWrite (p addr : Nat) (bs : List Byte) (poison : Bool) (task : Nat) : Act :=
  Act.each (pieces (bs.length / 64 + 2) addr bs) fun x => hostPiece p x.1 x.2 poison task

/-- Read a range of host memory line by line, each line going on to its destination when its DATA arrives. -/
def hostRead (p addr n : Nat) (toHost : Bool) (dst task : Nat) : Act := .dyn fun d =>
  if !d.axlUp then endTask task stFault fkHostTimeout
  else Act.each (linesOf addr n) fun l =>
    let lo := max l addr
    let hi := min (l + 64) (addr + n)
    axlReq { Msg.mk0 opRdUc with part := p, addr := lo, len := hi - lo }
      (.copyRead p toHost (dst + (lo - addr)) (hi - lo)) task

/-- Copy a range of partition memory into partition memory; a poisoned source line poisons what it fills (R163). -/
def copyMem (p src dst n : Nat) (view : Option Nat) (task : Nat) : Act := .dyn fun d =>
  let bs := d.viewBytes p view src n
  .all [countRead p src n,
    Act.each (pieces (n / 64 + 2) dst bs) fun x =>
      lineWrite p view x.1 x.2 (d.poisoned p view (src + (x.1 - dst)) x.2.length) task]

/-- Copy a range of partition memory to host memory. -/
def copyOut (p src dst n : Nat) (view : Option Nat) (task : Nat) : Act := .dyn fun d =>
  let bs := d.viewBytes p view src n
  .all [countRead p src n,
    Act.each (pieces (n / 64 + 2) dst bs) fun x =>
      hostPiece p x.1 x.2 (d.poisoned p view (src + (x.1 - dst)) x.2.length) task]

/-- The partition memory that a copy reads. -/
def Dev.copyReads (d : Dev) (t : Task) (src n : Nat) : List (Nat × Nat × Nat) :=
  match d.place t.part src n false with
  | .mem o => [(t.part, o, n)]
  | _ => []

/-- The work of a task is over with a status. -/
def taskEnds (id status : Nat) : Act := updTask id fun t =>
  if t.ended then t else { t with ended := true, status := status }

/-- Two ranges overlap. -/
def overlaps (a b n : Nat) : Bool := decide (a < b + n) && decide (b < a + n)

/-- The COPY of R111 and R184: RANGE for a bad address, OVERLAP for overlapping ranges, a host destination of a proof
is refused (R458), otherwise every byte of the source goes to the destination. -/
def copyRange (t : Task) (src dst n : Nat) : Act := .dyn fun d =>
  let view := d.taskView t.id
  let toHost := fun _ : Unit => dProof t.desc && view.isSome
  match d.place t.part src n false, d.place t.part dst n true with
  | .bad, _ => .seq (Act.when (d.windowBars t.part src n false) windowRefusal) (taskEnds t.id stRange)
  | _, .bad => .seq (Act.when (d.windowBars t.part dst n true) windowRefusal) (taskEnds t.id stRange)
  | .mem s, .mem o =>
    if overlaps s o n then taskEnds t.id stOverlap
    else .all [copyMem t.part s o n view t.id, taskEnds t.id stOk]
  | .mem s, .host o =>
    if toHost () then endTask t.id stFault fkProofHostWrite
    else .all [copyOut t.part s o n view t.id, taskEnds t.id stOk]
  | .host s, .mem o => .all [hostRead t.part s n false o t.id, taskEnds t.id stOk]
  | .host s, .host o =>
    if overlaps s o n then taskEnds t.id stOverlap
    else if toHost () then endTask t.id stFault fkProofHostWrite
    else .all [hostRead t.part s n true o t.id, taskEnds t.id stOk]

end Sys2Proof.Machine
end

