-- ==== Sys2Proof/Machine/Queues.lean ====
section
/-! DEFINITION. The commands of 06: doorbells and head writes, enabling and disabling rings, tallies, dispatch of
KERNEL, MARKER and COPY tasks, and the completion of a task. -/

namespace Sys2Proof.Machine

/-- Writes to a partition's pages are ignored while it is under reset (R182). -/
def Dev.pageOpen (d : Dev) (p : Nat) : Bool := !bit (d.fld PWR_RESET_BUSY_PARTS) p

/-- A change of a queue's registers by software: nothing for an unassigned queue (R173) or one whose partition is under
reset (R182). -/
def onQueue (q : Nat) (a : Nat → Act) : Act := .dyn fun d =>
  match d.queuePart q with
  | some p => Act.when (d.pageOpen p) (a p)
  | none => .skip

/-- A write of QUE_TAIL, or a remote doorbell (R177, R178). -/
def doorbell (q tail : Nat) : Act := onQueue q fun _ => .dyn fun d =>
  let k := d.queueKind q
  if k == 2 || k == 5 then .skip
  else if !d.ringEnabled q then ringError q qeNotEnabled
  else
    let size := d.ringSize q
    let t := d.fld (QUE_TAIL_TAIL q)
    let fwd := (tail + size - t) % size
    if size ≤ tail then ringError q qeBadDoorbell
    else if fwd + d.ringPending q + 1 ≤ size then Act.set (QUE_TAIL_TAIL q) tail
    else ringError q qeBadDoorbell

/-- A write of QUE_HEAD (R179): slots are released and held records are written. -/
def headWrite (q head : Nat) : Act := onQueue q fun _ => .dyn fun d =>
  let k := d.queueKind q
  if k != 2 && k != 5 then .skip
  else
    let size := d.ringSize q
    let fwd := (head + size - d.fld (QUE_HEAD_HEAD q)) % size
    if size ≤ head || d.ringPending q < fwd then ringError q qeBadHead
    else .all [Act.set (QUE_HEAD_HEAD q) head, .dyn fun d => flushHeld q (d.ring q).held.length]

/-- Queue 3,840, the host event ring of DEFAULT (R110). -/
def bootRing : Nat := 3840

/-- Enabling the host event ring ends the boot log (R120); the first enabling of queue 3,840 as that ring copies the log
into it, in log order (R121). -/
def copyBootLog (q : Nat) : Act := .dyn fun d =>
  .seq (Act.when (q == d.hostRing) (.eng fun e => { e with recs := { e.recs with ringSeen := true } })) <|
  if q == bootRing && q == d.hostRing && !d.eng.recs.logCopied then
    .all [.eng fun e => { e with recs := { e.recs with logCopied := true } },
      Act.each (List.range (d.fld CFG_BOOT_LOG_COUNT_ENTRIES)) fun n =>
        post q ((List.range 8).map fun i => leBytes 8 (d.reg (CFG_BOOT_LOG n i)).toNat).flatten]
  else .skip

/-- Setting ENABLE: refused under R175 with an error code, otherwise HEAD and TAIL are 0 and the first pass starts
(R180). -/
def ringEnable (p q : Nat) : Act := .dyn fun d =>
  let k := d.queueKind q
  let lg := d.fld (QUE_CFG_LOG2_SIZE q)
  let base := d.fld (QUE_BASE_BASE q) * 4096
  let bytes := 64 * 2 ^ lg
  let recordRing := k == 2 || k == 5
  let loc := d.flag (QUE_BASE_LOC q)
  if lg < 4 || 16 < lg then ringError q qeConfigWhileEnabled
  else if recordRing && loc then ringError q qeConfigWhileEnabled
  else if loc && !d.inMemory p base bytes then ringError q qeRingAccess
  else if !loc && !d.hostPermit p base bytes recordRing then ringError q qeRingAccess
  else .all [Act.set (QUE_CFG_ENABLE q) 1, Act.set (QUE_HEAD_HEAD q) 0, Act.set (QUE_TAIL_TAIL q) 0,
    updRing q fun _ => Ring.empty, copyBootLog q]

/-- Clearing ENABLE: no new descriptors, and a completion or event ring drops its held records (R180). -/
def ringDisable (q : Nat) : Act := .dyn fun d =>
  .all [Act.set (QUE_CFG_ENABLE q) 0, Act.set (QUE_STATUS_BLOCKED q) 0,
    updRing q fun r => { r with desc := none, wait := 0 },
    Act.when (d.queueKind q == 2 || d.queueKind q == 5) (dropHeld q)]

/-- A write of QUE_CFG: LOG2_SIZE is fixed while the ring is enabled (R181); PRIORITY and VECTOR are stored; ENABLE
acts. -/
def queCfg (q v : Nat) : Act := onQueue q fun p => .dyn fun d =>
  let en := d.ringEnabled q
  let lg := field v 0 5
  .all [if en then Act.when (lg != d.fld (QUE_CFG_LOG2_SIZE q)) (ringError q qeConfigWhileEnabled)
      else Act.set (QUE_CFG_LOG2_SIZE q) lg,
    Act.set (QUE_CFG_PRIORITY q) (field v 5 2), Act.set (QUE_CFG_VECTOR q) (field v 8 8),
    if bit v 16 then (if en then .skip else ringEnable p q)
    else if en then ringDisable q else .skip]

/-- A write of QUE_BASE (R181). -/
def queBase (q v : Nat) : Act := onQueue q fun _ => .dyn fun d =>
  if d.ringEnabled q then ringError q qeConfigWhileEnabled
  else .all [Act.set (QUE_BASE_LOC q) (field v 0 1), Act.set (QUE_BASE_BASE q) (field v 12 52)]

/-- A descriptor read that is refused, finds poison, or is not answered in time (R674); whether host memory holds poison and
whether the read timed out, the command says. A refused read is counted (R169); a read that timed out is counted and retires
the TAG that it would take (R164). -/
def ringAccessFault (q : Nat) (timeout : Bool) : Act := .dyn fun d =>
  let k := d.queueKind q
  let here := d.flag (QUE_BASE_LOC q)
  if (k == 1 || k == 3 || k == 4) && d.ringEnabled q && d.ringPending q != 0 && (d.ring q).desc.isNone &&
      (!here || (d.descriptor ((d.queuePart q).getD 0) q []).isNone) then
    let p := (d.queuePart q).getD 0
    let refused := !here && !d.hostPermit p (d.slotAddr q (d.fld (QUE_HEAD_HEAD q))) 64 false
    .all [Act.set (QUE_CFG_ENABLE q) 0, Act.set (QUE_STATUS_BLOCKED q) 0, ringError q qeRingAccess,
      if refused then windowRefusal
      else Act.when (timeout && !here && d.axlUp) (.seq (Act.count AXL_CONTAIN_COUNT_TIMEOUTS 1)
        (.eng fun e => { e with axl := { e.axl with retired := e.axl.retired ++ (e.axl.freeTag).toList } }))]
  else .skip

/-- A write of PART_CTRL (R192). -/
def partCtrl (p v : Nat) : Act := .dyn fun d =>
  Act.when (decide (p < 64) && d.pageOpen p) (Act.set (PART_CTRL_STOP p) (field v 0 1))

/-- A change of a tally by software: nothing for an unassigned tally or one whose partition is under reset. -/
def onTally (t : Nat) (a : Act) : Act := .dyn fun d =>
  match d.tallyPart t with
  | some p => Act.when (d.pageOpen p) a
  | none => .skip

/-- A host SET (R198). -/
def tallySetHost (t v : Nat) : Act := onTally t (tallySet t v)

/-- A host ADD (R198). -/
def tallyAddHost (t v : Nat) : Act := onTally t (tallyAdd t v)

/-- A write of 1 to FAULTED leaves VALUE unchanged, and clears no bit that hardware set in the same tcycle (R203, R209). -/
def tallyClear (t : Nat) : Act := onTally t (.dyn fun d =>
  Act.when (!bit (d.raisedBits (TLY_VALUE t)) 32) (Act.set (TLY_VALUE_FAULTED t) 0))

/-- The kernel header breaks R251, or lies outside the partition's memory (R252). -/
def badHeader (d : Dev) (p addr : Nat) (h : List Byte) : Bool :=
  addr % 64 != 0 || !d.inMemory p addr 64 || leAt h 0 4 != 0x4B544749 || leAt h 4 2 != 1 || leAt h 6 1 == 0 ||
  decide (128 < leAt h 7 1) || leAt h 8 8 % 8 != 0 || decide (leAt h 16 4 < 8) ||
  decide (16777216 < leAt h 16 4) || leAt h 16 4 % 8 != 0 || leNat (h.drop 20) != 0

/-- Start a KERNEL task: the dispatcher reads the header and the gatherings wait for placement (R184, R252). -/
def startKernel (t : Task) : Act := .dyn fun d =>
  let addr := dArg t.desc 0
  let view := d.taskView t.id
  let h := d.viewBytes t.part view addr 64
  if badHeader d t.part addr h then endTask t.id stFault fkBadHeader
  else if d.poisoned t.part view addr 64 then endTask t.id stFault fkPoison
  else updTask t.id fun x => { x with header := h }

/-- KERNEL (R184); a descriptor of an unknown kind is turned down with it (R187). -/
def actKernel (q : Nat) (bs : List Byte) : Act := 
  dispatch q bs (fun b => !([kdService, kdCopy, kdSend, kdMarker].contains (dKind b))) (fun _ t => [(t.part, dArg t.desc 0, 64)]) startKernel

/-- MARKER: completes with no work (R183). -/
def actMarker (q : Nat) (bs : List Byte) : Act :=
  dispatch q bs (fun b => dKind b == kdMarker) (fun _ _ => []) fun t => taskEnds t.id stOk

/-- COPY_TASK (R184, R186). -/
def actCopyTask (q : Nat) (bs : List Byte) : Act :=
  dispatch q bs (fun b => dKind b == kdCopy) (fun d t => d.copyReads t (dArg t.desc 0) (dArg t.desc 2)) fun t =>
    copyRange t (dArg t.desc 0) (dArg t.desc 1) (dArg t.desc 2)

/-- TASK_COMPLETE: once all of a task's work has ended and its accesses have been accepted (R193). -/
def actTaskComplete (id : Nat) : Act := .dyn fun d =>
  match d.task id with
  | some t => Act.when (d.workEnded t && d.taskQuiet id) (finishTask t)
  | none => .skip

end Sys2Proof.Machine
end

