-- ==== Sys2Proof/Machine/Epochs.lean ====
section
/-! DEFINITION. Proof epochs (14): opening, committing and discarding, the installation of versions, the outcomes of
job-wide epochs and the class of an epoch that a packet carries. -/

namespace Sys2Proof.Machine

/-! ### Closing an epoch (R448 to R454) -/

/-- Every host-held line of a versioned granule is recalled before the installation (R452). -/
def recallGranule (p g : Nat) : Act := .dyn fun d =>
  Act.each (d.eng.axl.dir.filter fun x => decide (lineKey p (g * 4096) ≤ x.1) && decide (x.1 < lineKey p (g * 4096) + 64))
    fun x => snoop x.1 false

/-- Install the lines of a version that its epoch has written (R452): data move only where the committed content has changed
since it was copied, and any other granule is remapped in place (R454). -/
def installVersion (v : Version) : Act := .dyn fun d =>
  let moves := d.granBytes v.part v.gran != v.copied
  .all [recallGranule v.part v.gran,
    Act.each (upTo 64 (bit v.mask)) fun l =>
      lineWriteFrom (if jobWide v.epoch then .jobInstall moves else .localInstall moves) v.part none (v.gran * 4096 + l * 64)
        ((List.range 64).map fun i => Store.get zeroByte (l * 64 + i) v.data) (bit v.poison l) 0]

/-- The versions of an epoch go back to the pool, and the folio caches hold none of them any more (R455). -/
def dropVersions (p e : Nat) : Act := .all [
  .eng fun en => { en with dune := { en.dune with
      versions := en.dune.versions.filter fun v => !(v.part == p && v.epoch == e)
      folios := en.dune.folios.filter fun x => !(x.key / 2 ^ 34 == p && x.view == some e) } },
  .dyn fun d => Act.set (TRN_PROOF_VERSION_GRANULES p) (d.eng.dune.versions.filter fun v => v.part == p).length]

/-- Shift an outcome into the last 16, where the epoch is the latest opened (R446). -/
def noteOutcome (p e : Nat) (committed : Bool) : Act := .dyn fun d =>
  let latest := d.fld (TRN_PROOF_JOB_LATEST p)
  let back := (latest + 2 ^ 31 - e % 2 ^ 31) % 2 ^ 31
  if jobWide e && decide (1 ≤ back) && decide (back ≤ 16) && committed then
    Act.set (TRN_PROOF_JOB_OUTCOMES p) (d.fld (TRN_PROOF_JOB_OUTCOMES p) ||| 2 ^ (back - 1))
  else .skip

/-- Commit an open epoch: its slot is free, its tasks go on as ordinary tasks, and its lines are installed (R449,
R452, R454). -/
def commitEpoch (p e : Nat) : Act := .dyn fun d =>
  match d.epochSlot p e with
  | none => .skip
  | some k =>
    .all [Act.set (TRN_PROOF_SLOT_VALID p k) 0, Act.set (TRN_PROOF_SLOT_EPOCH p k) 0,
      .eng fun en => { en with
        tasks := en.tasks.map fun t => if t.part == p && t.epoch == some e then { t with epoch := none } else t
        dune := { en.dune with closing := en.dune.closing ++ [(p, e)] } },
      Act.each (d.eng.dune.versions.filter fun v => v.part == p && v.epoch == e) installVersion,
      dropVersions p e, Act.add (TRN_PROOF_COUNT_COMMITS p) 1]

/-- Discard an open epoch: its tasks stop with DEPENDENCY and its versions go (R448, R453). -/
def discardEpoch (p e : Nat) : Act := .dyn fun d =>
  match d.epochSlot p e with
  | none => .skip
  | some k =>
    .all [Act.set (TRN_PROOF_SLOT_VALID p k) 0, Act.set (TRN_PROOF_SLOT_EPOCH p k) 0,
      .eng fun en => { en with dune := { en.dune with closing := en.dune.closing ++ [(p, e)] } },
      Act.each (d.eng.tasks.filter fun t => t.part == p && t.epoch == some e) fun t => endTask t.id stDependency 0,
      dropVersions p e, Act.add (TRN_PROOF_COUNT_DISCARDS p) 1]

/-- Discard every open epoch of a partition (R463). -/
def discardAll (p : Nat) : Act := .dyn fun d =>
  Act.each ([0, 1, 2, 3].filter fun k => d.flag (TRN_PROOF_SLOT_VALID p k)) fun k =>
    discardEpoch p (d.fld (TRN_PROOF_SLOT_EPOCH p k))

/-- EPOCH_INSTALL_DONE: a commit or discard has completed at every dune base of the partition, once no line of it waits
for the host (R452, R454). -/
def actEpochInstallDone (p e : Nat) : Act := .dyn fun d =>
  if d.eng.dune.closing.contains (p, e) &&
      !(d.eng.axl.home.any fun h => h.line / 2 ^ 34 == p && h.origin.installs) then
    .eng fun en => { en with dune := { en.dune with closing := en.dune.closing.erase (p, e) } }
  else .skip

/-! ### Opening an epoch (R442, R444, R677) -/

/-- PROOF.OPEN of a local epoch: into the lowest free slot open to it, where one is free. -/
def openLocal (p e : Nat) (task : Nat) : Act := .dyn fun d =>
  let slots := if d.holdsRank p then [1, 2, 3] else [0, 1, 2, 3]
  if jobWide e then endTask task stFault fkProofRole
  else if d.epochOpen p e then .skip
  else match slots.find? fun k => !d.flag (TRN_PROOF_SLOT_VALID p k) with
    | some k => .all [Act.set (TRN_PROOF_SLOT_EPOCH p k) e, Act.set (TRN_PROOF_SLOT_VALID p k) 1]
    | none => endTask task stFault fkProofLimit

/-- Commit or discard of a local epoch by an instruction; one that is not open is counted (R441, R445). -/
def closeLocal (p e : Nat) (commit : Bool) : Act := .dyn fun d =>
  if !d.epochOpen p e then Act.add (TRN_PROOF_DROP_NOOP p) 1
  else if commit then commitEpoch p e else discardEpoch p e

/-- A decision opens a job-wide epoch in slot 0. The first one sets LATEST and clears OUTCOMES; a later one shifts the
outcomes by the numbers passed over (R442, R446, R677). -/
def openJob (p e : Nat) : Act := .dyn fun d =>
  if !jobWide e then .skip
  else
    let latest := d.fld (TRN_PROOF_JOB_LATEST p)
    let n := e % 2 ^ 31
    let first := !d.eng.proof.jobOpened.contains p
    let ahead := (n + 2 ^ 31 - latest) % 2 ^ 31
    .all [
      Act.when (d.flag (TRN_PROOF_SLOT_VALID p 0) && d.fld (TRN_PROOF_SLOT_EPOCH p 0) != e)
        (discardEpoch p (d.fld (TRN_PROOF_SLOT_EPOCH p 0))),
      Act.set (TRN_PROOF_JOB_OUTCOMES p)
        (if first then 0 else if 16 < ahead then 0 else d.fld (TRN_PROOF_JOB_OUTCOMES p) * 2 ^ ahead),
      Act.set (TRN_PROOF_JOB_LATEST p) n,
      Act.set (TRN_PROOF_SLOT_EPOCH p 0) e, Act.set (TRN_PROOF_SLOT_VALID p 0) 1,
      .eng fun en => { en with proof := { en.proof with jobOpened := p :: en.proof.jobOpened.filter (· != p) } },
      .dyn fun d => Act.each ((d.eng.rings.map fun kv => kv.1).filter fun q => d.queuePart q == some p) fun q =>
        match (d.ring q).desc with
        | some b => Act.when (dProof b && dEpoch b == e && (d.ring q).wait == 1) (Act.set (QUE_STATUS_BLOCKED q) 0)
        | none => .skip]

/-- After a TRAINING record takes effect no job-wide epoch counts as opened yet (R677). -/
def forgetJob (p : Nat) : Act :=
  .eng fun en => { en with proof := { en.proof with jobOpened := en.proof.jobOpened.filter (· != p) } }

/-! ### Packets (R462) -/

/-- The class of an epoch that a packet carries: 0 committed memory, 1 joins the version, 2 held, 3 discarded,
4 a local value, refused. -/
def Dev.epochClass (d : Dev) (p e : Nat) : Nat :=
  if e = 0 then 0
  else if !jobWide e then 4
  else if d.epochOpen p e then 1
  else
    let latest := d.fld (TRN_PROOF_JOB_LATEST p)
    let ahead := (e % 2 ^ 31 + 2 ^ 31 - latest) % 2 ^ 31
    let back := (latest + 2 ^ 31 - e % 2 ^ 31) % 2 ^ 31
    if !d.eng.proof.jobOpened.contains p || (decide (1 ≤ ahead) && decide (ahead ≤ 2 ^ 30)) then 2
    else if decide (1 ≤ back) && decide (back ≤ 16) && bit (d.fld (TRN_PROOF_JOB_OUTCOMES p)) (back - 1) then 0
    else 3

end Sys2Proof.Machine
end

