-- ==== Sys2Proof/Machine/Training.lean ====
section
/-! DEFINITION. Training state (13): the counter-hash generator, the step record, the effect of a TRAINING record and
the installation of a decision in a partition. -/

namespace Sys2Proof.Machine

/-! ### The generator (R414) -/

def genC : List Word := (List.range 12).map fun r => BitVec.ofNat 32 ((r + 1) * 0x9E3779B9)
def genS : List Nat := [13, 17, 5, 24, 9, 21, 3, 16, 11, 27, 7, 19]

/-- One round on (a, b). -/
def genRound (k : Nat → Word) (ab : Word × Word) (r : Nat) : Word × Word :=
  let a := ab.1 + k (r % 4) + genC.getD r 0
  let b := (ab.2 ^^^ a).rotateLeft (genS.getD r 0)
  ((a + b).rotateLeft 11 ^^^ b, b)

/-- G(k, i). -/
def gen (k : Nat → Word) (i : Word) : Word :=
  let x := (List.range 12).foldl (genRound k) (i, 0x243F6A88)
  x.1 + x.2

/-! ### The step record (R425) -/


def decInit : Nat := 0
def decCommit : Nat := 1
def decNonfinite : Nat := 2
def decLate : Nat := 3
def decFloor : Nat := 4
def decSoftware : Nat := 5

/-- The 64 bytes of a step record. -/
def stepRecord (d : Dev) (p decision step attempt : Nat) : List Byte :=
  leBytes 4 (d.fld (TRN_STEP_STEP p)) ++ leBytes 2 (d.fld (TRN_STEP_ATTEMPT p)) ++ leBytes 1 (d.fld (TRN_LS_EXP p)) ++
  leBytes 1 decision ++ leBytes 4 (d.fld (TRN_LS_CLEAN p)) ++ leBytes 4 (d.accumCount p) ++ leBytes 4 step ++
  leBytes 2 attempt ++ leBytes 1 (d.lsMode p) ++ [0] ++ leBytes 8 d.now ++ List.replicate 32 0

/-- Write the step record where TRN_RECORD.EN is 1; outside the partition's memory, RECORD_FAULT is set instead. -/
def writeRecord (p decision step attempt : Nat) : Act := .dyn fun d =>
  let a := d.fld (TRN_RECORD_ADDR p) * 64
  if !d.flag (TRN_RECORD_EN p) then .skip
  else if !d.inMemory p a 64 then Act.raise (TRN_STATUS_RECORD_FAULT p) (TRN_COUNT_C_RECORD_FAULTS p)
  else lineWrite p none a (stepRecord d p decision step attempt) false 0

/-- A TRAINING record is in force for a partition (TRN_CFG.ACTIVE). -/
def Dev.trainingActive (d : Dev) (p : Nat) : Bool := d.formed p && (d.training p).isSome

/-- A TRAINING record takes effect (R421, R425, R677): only a partition that holds a rank keeps a loss scale. -/
def trainingEffect (p : Nat) : Act := .dyn fun d =>
  if !d.trainingActive p then .skip
  else .all [
    Act.when (d.holdsRank p) (.all [Act.set (TRN_LS_EXP p) (d.lsInitExp p), Act.set (TRN_LS_CLEAN p) 0,
      Act.set (TRN_STEP_ATTEMPT p) 0,
      .eng fun e => { e with
        red := { e.red with init := true }
        mgr := { Mgr.init with early := e.mgr.early, aligned := e.mgr.aligned, failures := e.mgr.failures,
                               refused := e.mgr.refused } }]),
    forgetJob p, writeRecord p decInit 0 0]

/-! ### The registers (R439) -/

/-- Open work that keeps a partition from a quiesce point is looked at by the caller; these are the writes that a
quiesced partition accepts. A write of TRN_STEP sets STEP and clears ATTEMPT, and a record is written (R425). -/
def trnStep (p v : Nat) : Act :=
  .all [Act.set (TRN_STEP_STEP p) (field v 0 32), Act.set (TRN_STEP_ATTEMPT p) 0, writeRecord p decSoftware 0 0]

/-- A write of TRN_LS sets EXP and CLEAN, and a record is written (R425). -/
def trnLs (p v : Nat) : Act :=
  .all [Act.set (TRN_LS_EXP p) (field v 0 6), Act.set (TRN_LS_CLEAN p) (field v 32 32), writeRecord p decSoftware 0 0]

/-! ### The decision tally (R426) -/

/-- Step 4 of R426: the decision tally. -/
def decisionTally (p : Nat) : Act := .dyn fun d =>
  let n := d.fld (TRN_TALLY_DECISION_TALLY p)
  if n = 0xFFFF then .skip
  else match d.relTally p n with
    | some t => tallyAdd t 1
    | none => queueError p

end Sys2Proof.Machine
end

