-- ==== Sys2Proof/Machine/Clearing.lean ====
section
/-! DEFINITION. Quiesce points (R50) and the clearing that base loads, partition resets and cold and warm resets share
(R51, R52, R92, R146, R330, R391, R484, R490, R625). -/

namespace Sys2Proof.Machine

/-! ### Quiesce points -/

/-- Copies, gathers or streams of a partition's quires are outstanding. -/
def Dev.moving (d : Dev) (p : Nat) : Bool :=
  d.eng.quires.any fun kv => d.quirePart kv.1 == some p &&
    (kv.2.copies != [] || kv.2.gathers != [] || kv.2.streams.any fun s => s.2.state != 0)

/-- The partition of the task that a number belongs to. -/
def Dev.idPart (d : Dev) (id : Nat) : Option Nat := (d.task (d.ownerOf id)).map Task.part

/-- Fabric sends of a partition are unacknowledged: packets and requests of its tasks, reduction packets without an
answer, and the mirror packets of the rank partition. -/
def Dev.sending (d : Dev) (p : Nat) : Bool :=
  (d.eng.fab.e2e.any fun x => d.idPart x.task == some p) || (d.eng.fab.reqs.any fun x => x.part == p) ||
  (d.eng.fab.blocked.any fun x => d.idPart x.2 == some p) || (d.eng.red.sends.any fun x => x.part == p) ||
  (d.holdsRank p && d.eng.dune.mirrors != [])

/-- A partition at a quiesce point; an unformed one is. -/
def Dev.quiesced (d : Dev) (p : Nat) : Bool :=
  !d.formed p ||
  (d.flag (PART_CTRL_STOP p) && !(d.eng.tasks.any fun t => t.part == p) && !d.moving p &&
    !([0, 1, 2, 3].any fun k => d.flag (TRN_PROOF_SLOT_VALID p k)) && !d.sending p)

/-- What a base load and a microcode load need (R49, R117). -/
def Dev.quietForBase (d : Dev) : Bool :=
  (formedList d.eng.cfg.base).all d.quiesced && d.fld PWR_RESET_BUSY_PARTS == 0 &&
  decide (d.fld RES_SNAP_STATUS_STATE ≤ 1) && d.fld RES_FILL_STATUS_STATE != 1

/-! ### Recalls before zeroing (R146) -/

/-- Recall every host-held line that a test picks and give up its entry, so that data returned is discarded; host
requests that wait for such a line are answered ERROR, and writes that wait for it are dropped. -/
def recallLines (p : Nat → Bool) : Act := .dyn fun d =>
  let ls := (d.eng.axl.dir.map fun x => x.1).filter p
  let gone := fun h : HomeWait => match h.msg with
    | some m => match d.msgLine m with
      | some k => p k
      | none => false
    | none => p h.line
  .all [Act.each ls fun k => snoop k false,
    .eng fun e => { e with axl := { e.axl with
        dir := e.axl.dir.filter fun x => !p x.1
        home := e.axl.home.filter fun h => !gone h } },
    Act.each (d.eng.axl.home.filter gone) fun h => match h.msg with
      | some m => answerCmp m true
      | none => .skip]

/-- The partition a line's key belongs to. -/
def keyPart (k : Nat) : Nat := k / 2 ^ 34

/-! ### Clearing quires, memory and epochs -/

/-- Clear the quires that a test picks, with their demand accesses. -/
def clearQuires (p : Nat → Bool) : Act := .eng fun e =>
  { e with quires := Store.drop p e.quires, memWaits := e.memWaits.filter fun w => !p w.quire }

/-- Put the RO fields of a quire's thread registers back to their reset values (R250). -/
def clearThr (n : Nat) : Act := .dyn fun d =>
  .all [.forget (THR_RESIDENT n) (THR_RESIDENT n + 0x40), .forget (THR_STALL_COUNT n) (THR_RESIDENT n + 0x1000),
    .forget (MTX_PASS_COUNT n) (MTX_ACC_FILE n), .forget (VEC_INSTR_COUNT n) (VEC_WAIT_COUNT n + 8),
    .reg (THR_WDOG n) (d.reg (THR_WDOG n))]

/-- Zero a partition's memory: no byte is listed, no line is poisoned or fresh, no version, mirror or frozen copy
is left (R484, R490). -/
def zeroPart (p : Nat) : Act := .all [
  .zero (memKey p 0) (memKey (p + 1) 0),
  .eng fun e => { e with
    poison := e.poison.filter fun k => keyPart k != p
    dune := { e.dune with
      versions := e.dune.versions.filter fun v => v.part != p
      frozen := e.dune.frozen.filter fun f => f.part != p
      folios := e.dune.folios.filter fun x => keyPart x.key != p } }]

/-- Zero all of device memory (R51). -/
def zeroAll : Act := .all [
  .zero 0 (2 ^ 46),
  .eng fun e => { e with
    poison := []
    dune := { versions := [], closing := [], frozen := [], mirrors := [], fresh := [], folios := [] } }]

/-- Draw a fresh key pair for a partition that is encrypted (R625). -/
def drawKey (p : Nat) : Act := .dyn fun d =>
  Act.when (d.encrypts p) (.eng fun e => { e with sec := { e.sec with
      keys := Store.put zeroNat p (Store.get zeroNat p e.sec.keys + 1) e.sec.keys } })

end Sys2Proof.Machine
end

