-- ==== Sys2Proof/Machine/Leaf.lean ====
section
/-! DEFINITION. The leaf and the arrival counters of a quire (09): leaf addresses, reading and writing a gathering's
allocation, counters with the threads that wait on them, releases of streams, and what an ARRIVE or FENCE waits for. -/

namespace Sys2Proof.Machine

/-! ### Leaf bytes (R292) -/

/-- The bytes of a gathering's allocation. -/
def Gathering.size (g : Gathering) : Nat := g.pages.length * 4096

/-- The physical leaf byte of a local offset. -/
def Gathering.phys (g : Gathering) (o : Nat) : Nat := g.pages.getD (o / 4096) 0 * 4096 + o % 4096

def Quire.leafByte (q : Quire) (g : Gathering) (o : Nat) : Byte := Store.get zeroByte (g.phys o) q.leaf

def Quire.leafBytes (q : Quire) (g : Gathering) (o n : Nat) : List Byte :=
  (List.range n).map fun i => q.leafByte g (o + i)

/-- The little-endian number in n leaf bytes. -/
def Quire.leafNat (q : Quire) (g : Gathering) (o n : Nat) : Nat := leNat (q.leafBytes g o n)

/-- Write bytes at a local offset of a gathering's allocation. -/
def Quire.leafPut (q : Quire) (g : Gathering) (o : Nat) (bs : List Byte) : Quire :=
  { q with leaf := (List.range bs.length).foldl (fun s i => Store.put zeroByte (g.phys (o + i)) (bs.getD i 0) s) q.leaf }

def leafWrite (n : Nat) (g : Gathering) (o : Nat) (bs : List Byte) : Act := updQuire n fun q => q.leafPut g o bs

/-- The gathering of a task with a number, on a quire. -/
def Quire.gathering (q : Quire) (task num : Nat) : Option Gathering :=
  q.gaths.find? fun g => g.task == task && g.num == num

/-! ### Leaf addresses (R293 to R299) -/

def laOff (a : Nat) : Nat := field a 0 19
def laQuire (a : Nat) : Nat := field a 19 4
def laCross (a : Nat) : Bool := bit a 23
def laInfo (a : Nat) : Bool := bit a 24

/-- The address breaks R293. -/
def laBad (a : Nat) : Bool :=
  decide (2 ^ 25 ≤ a) || (laCross a && laInfo a) || (!laCross a && laQuire a != 0)

/-- The target gathering of a task on a quire: the lowest-numbered one resident there (R297). -/
def Quire.target (q : Quire) (task : Nat) : Option Gathering :=
  (q.gaths.filter fun g => g.task == task).foldl (fun m g => match m with
    | none => some g
    | some x => if g.num < x.num then some g else some x) none

/-- Where len bytes at a leaf address lie for a gathering on quire n: none is LEAF_RANGE. A cross access that names the
issuing quire is local (R298). -/
def Dev.leafAt (d : Dev) (n : Nat) (g : Gathering) (a len : Nat) (crossOk : Bool) : Option (Nat × Gathering) :=
  let inside := fun g : Gathering => decide (laOff a + len ≤ g.size)
  if laBad a || laInfo a then none
  else if !laCross a then (if inside g then some (n, g) else none)
  else if !crossOk || 12 ≤ laQuire a then none
  else if laQuire a = n % 12 then (if inside g then some (n, g) else none)
  else
    let m := n / 12 * 12 + laQuire a
    match (d.quire m).target g.task with
    | some t => if inside t then some (m, t) else none
    | none => none

/-- The address names no bytes whatever is resident on another quire: it breaks R293, names no quire or a cross leaf in copy
mode, or runs past the gathering's own allocation (R293, R294, R296, R297). -/
def Gathering.refuses (g : Gathering) (n a len : Nat) (crossOk : Bool) : Bool :=
  laBad a || laInfo a || (laCross a && (!crossOk || decide (12 ≤ laQuire a))) ||
  ((!laCross a || laQuire a == n % 12) && decide (g.size < laOff a + len))

/-- The placement words (R295); word 0x000 names the slot of caravan 0, also once it has drained. -/
def Dev.placementWord (d : Dev) (n : Nat) (g : Gathering) (o : Nat) : Nat :=
  let s := n / 12
  let first := g.slots.headD 0
  if o = 0 then
    n % 12 + first * 2 ^ 4 + g.pages.getD 0 0 * 2 ^ 10 + bv (d.sigCluster s) * 2 ^ 17 + bv (decide (4 ≤ n % 12)) * 2 ^ 18
  else if o = 4 then
    (List.range 12).foldl (fun m q => if ((d.quire (s * 12 + q)).target g.task).isSome then m + 2 ^ q else m) 0
  else if 0x40 ≤ o ∧ o < 0x70 then
    match (d.quire (s * 12 + (o - 0x40) / 4)).target g.task with
    | some t => t.num
    | none => 0xFFFFFFFF
  else 0

/-! ### Work that reads or writes the leaf later (R304, R369) -/

/-- An instruction of the matrix unit or the vector engine still has leaf accesses to perform. -/
def Quire.leafPending (q : Quire) (id : Nat) : Bool :=
  (q.mtx.queue.any fun o => o.id == id) ||
  (q.vec.queue.any fun o => o.id == id && (o.kind == .vld || o.kind == .vst)) ||
  (q.vec.run.any fun r => r.op.id == id && r.op.kind == .vst)

/-- The collective instructions of a caravan with leaf accesses still to perform, whose mask holds one of some lanes. -/
def Quire.leafWork (q : Quire) (slot mask : Nat) : List Nat :=
  ((q.mtx.queue.filter fun o => o.slot == slot && o.cmask &&& mask != 0).map MOp.id ++
    ((q.vec.queue ++ q.vec.run.map VRun.op).filter fun o => o.slot == slot && o.cmask &&& mask != 0).map VOp.id).filter
    q.leafPending

/-! ### Arrival counters (R300 to R304) -/

def Quire.counter (q : Quire) (k : Nat) : Nat := Store.get zeroNat k q.arr

def noStream : Nat → Stream := fun _ =>
  { state := 0, task := 0, gath := 0, slot := 0, mem := 0, host := false, write := false, units := 0, rows := 0,
    stride := 0, leaf := 0, logSlots := 0, next := 0, released := 0, ahead := [], dropped := [], demand := [],
    bad := [], flight := [],
    closing := false }

def Quire.stream (q : Quire) (c : Nat) : Stream := Store.get noStream c q.streams

def updStream (n c : Nat) (f : Stream → Stream) : Act := updQuire n fun q =>
  { q with streams := Store.put noStream c (f (q.stream c)) q.streams }

/-- Counter k is bound to an active stream context. -/
def Quire.bound (q : Quire) (k : Nat) : Bool := decide (16 ≤ k) && (q.stream (k - 16)).state == 1

/-- Wake the threads that an update of a counter satisfies. -/
def Caravan.arriveWake (c : Caravan) (k v : Nat) (l : Nat) : Caravan :=
  match c.thread l with
  | .waitArrive k' target =>
    if k' == k && !c.stopping && tallySat v target then (c.setThreads [l] .active).advance [l] 8 else c
  | _ => c

/-- Put a value into a counter and wake its waiters. -/
def Quire.setCounter (q : Quire) (k v : Nat) : Quire :=
  { q with
    arr := Store.put zeroNat k (v % 2 ^ 32) q.arr
    caravans := q.caravans.map fun c => lanes.foldl (fun c l => c.arriveWake k (v % 2 ^ 32) l) c }

/-- Add to a counter; on a counter bound to an active stream context a positive addend is a release instead (R302,
R307, R314). The counters of a quire with no resident gathering stay 0 (R300). -/
def Quire.arrive (q : Quire) (k addend : Nat) : Quire :=
  if q.gaths = [] then q
  else if q.bound k then
    if signed 32 addend ≤ 0 then q
    else
      let s := q.stream (k - 16)
      { q with streams := Store.put noStream (k - 16) { s with released := s.released + addend % 2 ^ 32 } q.streams }
  else q.setCounter k (q.counter k + addend)

/-- Carry out the arrivals whose leaf accesses have all been performed (R304). -/
def Quire.settle (q : Quire) : Quire :=
  let ready := fun a : LateArrive => a.waits.all fun i => !q.leafPending i
  (q.late.filter ready).foldl (fun q a => q.arrive a.counter a.addend)
    { q with late := q.late.filter fun a => !ready a }

/-! ### FENCE (R278) -/

/-- An access that a FENCE waits for is still outstanding. -/
def Dev.accessOpen (d : Dev) (n id : Nat) : Bool := d.busy id || (d.quire n).leafPending id

/-- A FENCE holds the memory accesses of some lane. -/
def Dev.fenceHolds (d : Dev) (n slot mask : Nat) : Bool :=
  (d.quire n).fences.any fun f => f.slot == slot && f.lanes &&& mask != 0 && f.ids.any (d.accessOpen n)

/-- Note an access of a caravan that is still outstanding, and forget those that are not. -/
def noteAccess (n slot mask space id : Nat) : Act := .dyn fun d =>
  updQuire n fun q => { q with
    accs := (q.accs.filter fun a => d.accessOpen n a.id) ++
      (if d.busy id then [{ slot := slot, lanes := mask, space := space, id := id }] else [])
    fences := q.fences.filter fun f => f.ids.any (d.accessOpen n) }

end Sys2Proof.Machine
end

