-- ==== Sys2Proof/Machine/Operands.lean ====
section
/-! DEFINITION. Operand specifiers, the fields an instruction uses and the checks of them (R259 to R265), and instructions
and waiting instances as they issue. -/

namespace Sys2Proof.Machine

/-! ### Specifiers (R260, R261) -/

/-- What a 9-bit operand specifier names. -/
inductive Opnd where
  | g (r : Nat)
  | gz
  | u (r : Nat)
  | p (r : Nat)
  | lane
  | stampLo
  | stampHi
  | bad
  deriving DecidableEq, Repr

def opnd (s : Nat) : Opnd :=
  if s < 0xFF then .g s
  else if s = 0xFF then .gz
  else if 0x100 ≤ s ∧ s < 0x140 then .u (s - 0x100)
  else if 0x140 ≤ s ∧ s < 0x148 then .p (s - 0x140)
  else if s = 0x180 then .lane
  else if s = 0x181 then .stampLo
  else if s = 0x182 then .stampHi
  else .bad

/-- How an instruction uses an operand field: not at all; as a source or a destination of w registers; as a predicate
destination, with or without gz; as the base of an address; as the element index of stochastic rounding; as a register and
the index in the next one (a stochastic FFMA, a VEC instruction with its count). The last two read the key in u60 to u63
as well (R272). -/
inductive Use where
  | none
  | src (w : Nat)
  | dst (w : Nat)
  | pred
  | predOrGz
  | base
  | index
  | pair
  deriving DecidableEq, Repr

/-- The specifier is ILLEGAL for its use (R260, R261, R268, R272, R274, R279). -/
def Use.illegal (u : Use) (s : Nat) : Bool :=
  match u with
  | .none => s != 0
  | .src w => match opnd s with
    | .g r | .u r => r % w != 0
    | .gz => false
    | .bad => true
    | _ => w != 1
  | .index => opnd s == .bad
  | .dst w => match opnd s with
    | .g r | .u r => r % w != 0
    | .gz => false
    | .p _ => w != 1
    | _ => true
  | .pred => match opnd s with
    | .p _ => false
    | _ => true
  | .predOrGz => match opnd s with
    | .p _ | .gz => false
    | _ => true
  | .base => match opnd s with
    | .u r => r % 2 != 0
    | .gz => false
    | _ => true
  | .pair => match opnd s with
    | .g r | .u r => r % 2 != 0
    | _ => true

/-- The registers a use takes, from the one named. -/
def Use.width : Use → Nat
  | .src w => w
  | .dst w => w
  | .base => 2
  | .pair => 2
  | _ => 1

/-- The use reaches a general register at or above REGS (R248, R261). -/
def Use.outOfRange (u : Use) (s regs : Nat) : Bool :=
  match u, opnd s with
  | .none, _ => false
  | u, .g r => decide (regs < r + u.width)
  | _, _ => false

/-- The registers of the key of stochastic rounding and of DMASK (R272, R415). -/
def keyRegs : List Nat := [60, 61, 62, 63]

/-- The uniform registers a use reads or writes. -/
def Use.uniforms (u : Use) (s : Nat) : List Nat :=
  (match u with
    | .index | .pair => keyRegs
    | _ => []) ++
  match u, opnd s with
  | .none, _ => []
  | u, .u r => (List.range u.width).map fun i => r + i
  | _, _ => []

/-! ### Reading and writing operands -/

/-- A source operand as a thread reads it (R260, R265): lane 0 to 31, and the stamp counter. -/
def Caravan.read (c : Caravan) (now s l : Nat) : Word :=
  match opnd s with
  | .g r => c.reg r l
  | .u r => c.uni r
  | .p r => if c.pred r l then 1 else 0
  | .lane => BitVec.ofNat 32 l
  | .stampLo => BitVec.ofNat 32 now
  | .stampHi => BitVec.ofNat 32 (now / 2 ^ 32)
  | _ => 0

/-- A group of w registers as one number, lowest register first. -/
def Caravan.readGroup (c : Caravan) (now s w l : Nat) : Nat :=
  match opnd s with
  | .gz => 0
  | _ => (List.range w).foldr (fun i v => (c.read now (s + i) l).toNat + 2 ^ 32 * v) 0

/-- Write a destination register for the lanes that execute; a uniform register takes the value of the lowest of them
(R262), a predicate bit 0. -/
def Caravan.write (c : Caravan) (s : Nat) (ls : List Nat) (f : Nat → Word) : Caravan :=
  match opnd s with
  | .g r => { c with g := setLanes zeroWord (r * 32) ls f c.g }
  | .u r => match ls.head? with
    | some l => { c with u := Store.put zeroWord r (f l) c.u }
    | none => c
  | .p r => { c with p := setLanes noPred (r * 32) ls (fun l => (f l).getLsbD 0) c.p }
  | _ => c

/-- Write a group of w registers from one number per lane. -/
def Caravan.writeGroup (c : Caravan) (s w : Nat) (ls : List Nat) (f : Nat → Nat) : Caravan :=
  match opnd s with
  | .gz => c
  | _ => (List.range w).foldl (fun c i => c.write (s + i) ls fun l => BitVec.ofNat 32 (f l / 2 ^ (32 * i))) c

/-! ### Base-format instructions (R255, R256, R259 to R264) -/

/-- What an instruction uses of its word: the operand fields, the MOD bits it defines, and the immediate (0 never,
1 allowed, 2 required). -/
structure Shape where
  dst : Use
  a : Use
  b : Use
  c : Use
  mod : Nat
  imm : Nat
  deriving DecidableEq, Repr

/-- The immediate, sign-extended (R263). -/
def immOf (w : BaseW) : Word := BitVec.ofInt 32 (signed 18 w.imm)

/-- With IMM 1 the immediate stands in the place of SRC_B and SRC_C. -/
def Shape.withImm (sh : Shape) (w : BaseW) : Shape := if w.immEn then { sh with b := .none, c := .none } else sh

/-- The word is ILLEGAL (R255, R259 to R261, R264). -/
def Shape.illegal (sh : Shape) (w : BaseW) : Bool :=
  (!bit w.guard 4 && w.guard != 0) || (w.mod ||| sh.mod) != sh.mod ||
  (sh.imm == 0 && w.immEn) || (sh.imm == 2 && !w.immEn) ||
  sh.dst.illegal w.dst || sh.a.illegal w.a ||
  (!w.immEn && (sh.b.illegal w.b || sh.c.illegal w.c))

/-- The word names a general register at or above REGS. -/
def Shape.outOfRange (sh : Shape) (w : BaseW) (regs : Nat) : Bool :=
  let s := sh.withImm w
  s.dst.outOfRange w.dst regs || s.a.outOfRange w.a regs || s.b.outOfRange w.b regs || s.c.outOfRange w.c regs

/-- The uniform registers the word names. -/
def Shape.uniforms (sh : Shape) (w : BaseW) : List Nat :=
  let s := sh.withImm w
  s.dst.uniforms w.dst ++ s.a.uniforms w.a ++ s.b.uniforms w.b ++ s.c.uniforms w.c

/-- The lanes of a path whose guard is true (R264). -/
def Caravan.guarded (c : Caravan) (guard : Nat) (path : List Nat) : List Nat :=
  if bit guard 4 then path.filter fun l => c.pred (guard % 8) l != bit guard 3 else path

/-- The uniform registers that vector instructions of a caravan have still to write (R266, R409). -/
def Quire.pendingUni (q : Quire) (slot : Nat) : List Nat :=
  ((q.vec.queue ++ q.vec.run.map VRun.op).filter fun o => o.slot == slot).flatMap fun o =>
    (if (o.kind == .vop || o.kind == .vred) && bit o.d 31 then [o.d % 64] else []) ++
    (if o.kind == .vcompress then [o.dreg + 1] else [])

/-- An instruction as it issues: where, for which task and gathering, on which path, and the lanes that execute. -/
structure Ctx where
  n : Nat
  slot : Nat
  pc : Nat
  now : Nat
  task : Task
  g : Gathering
  c : Caravan
  path : List Nat
  exec : List Nat
  w : BaseW
  deriving DecidableEq, Repr

/-- SRC_A, SRC_B and SRC_C as lane l reads them (R263). -/
def Ctx.va (x : Ctx) (l : Nat) : Word := x.c.read x.now x.w.a l
def Ctx.vb (x : Ctx) (l : Nat) : Word := if x.w.immEn then immOf x.w else x.c.read x.now x.w.b l
def Ctx.vc (x : Ctx) (l : Nat) : Word := if x.w.immEn then 0 else x.c.read x.now x.w.c l

/-- The key of stochastic rounding and of DMASK: u60 to u63 (R272, R415). -/
def Caravan.key (c : Caravan) : List Word := keyRegs.map c.uni

/-- The generator's word for an index under a key. -/
def genWord (key : List Word) (i : Word) : Word := gen (fun j => key.getD j 0) i

/-- A program fault of the instruction at hand (R248). -/
def Ctx.fault (x : Ctx) (kind : Nat) : Act := programFault x.task.id x.n x.slot kind

/-- Registers per thread, code bytes and the fields of the kernel header (R251). -/
def Task.regs (t : Task) : Nat := leAt t.header 6 1
def Task.leafPages (t : Task) : Nat := leAt t.header 7 1

/-- The caravan, gathering and task of a slot, where a path of it can run. -/
def Dev.running (d : Dev) (n slot : Nat) : Option (Caravan × Gathering × Task) :=
  match d.caravan n slot with
  | none => none
  | some c =>
    if c.stopping then none
    else match (d.quire n).gathOf c, d.task c.task with
      | some g, some t => some (c, g, t)
      | _, _ => none

/-- Advance the path past the instruction. -/
def Ctx.pass (x : Ctx) : Act := updCaravan x.n x.slot fun c => c.advance x.path 8

/-! ### Waiting instances (R233 to R247) -/

/-- The path switches for an AWAIT, a TALLY.WAIT, a barrier or a collective (R231). -/
def countWait (n : Nat) : Act := Act.add (THR_SWITCH_COUNT_WAITS n) 1

/-- An instance that completes after its watchdog fired has its record marked RESOLVED, while the record stands (R245,
R247). -/
def resolved (n : Nat) (st : Stall) : Act := .dyn fun d =>
  match st.fired with
  | some k => Act.when (decide ((d.fld (THR_STALL_COUNT_FIRED n) + 2 ^ 32 - k) % 2 ^ 32 ≤ 4))
      (Act.set (THR_STALL_REC1_RESOLVED n (k % 4)) 1)
  | none => .skip

/-- The instances that a test picks have completed. -/
def dropStalls (n : Nat) (p : Stall → Bool) : Act := .dyn fun d =>
  .all [Act.each ((d.quire n).stalls.filter p) (resolved n),
    updQuire n fun q => { q with stalls := q.stalls.filter fun s => !p s }]

/-- The first arrival starts an instance's timer (R244). -/
def startStall (n : Nat) (st : Stall) (same : Stall → Bool) : Act := updQuire n fun q =>
  if q.stalls.any same then q else { q with stalls := q.stalls ++ [st] }

/-! ### Long-format instructions (R240 to R243, R257, R259, R265) -/

/-- What a long instruction uses: DST, its sources, and the EXT bits it defines. -/
structure LShape where
  dst : Bool
  a : Use
  b : Use
  c : Use
  ext : Nat
  deriving DecidableEq, Repr

/-- A specifier of a long instruction names a general register or a predicate (R265). -/
def perThread (s : Nat) : Bool :=
  match opnd s with
  | .g _ | .p _ => true
  | _ => false

/-- A source that the instruction uses does. -/
def Use.perThread (u : Use) (s : Nat) : Bool := u != .none && Machine.perThread s

/-- A source of a long instruction is ILLEGAL: a general register or a predicate counts here only by the alignment of its
group, since R265 gives it OPERAND_KIND (R259 to R261, R396). -/
def Use.illegalLong (u : Use) (s : Nat) : Bool :=
  match u, opnd s with
  | .none, _ => u.illegal s
  | _, .p _ => false
  | _, .g r => r % u.width != 0
  | _, _ => u.illegal s

/-- The long word is ILLEGAL (R257, R259, R260): DST names a uniform register or 0x0FF, and 0x0FF where it is not used. -/
def LShape.illegal (sh : LShape) (w : LongW) : Bool :=
  w.guard != 0 || w.mod != 0 || w.cont != 0x1F || (w.ext ||| sh.ext) != sh.ext ||
  (match opnd w.dst with
    | .gz | .g _ | .p _ => false
    | .u _ => !sh.dst
    | _ => true) ||
  sh.a.illegalLong w.a || sh.b.illegalLong w.b || sh.c.illegalLong w.c

/-- The long word names a general register or a predicate: OPERAND_KIND (R265). -/
def LShape.perThread (sh : LShape) (w : LongW) : Bool :=
  Machine.perThread w.dst || sh.a.perThread w.a || sh.b.perThread w.b || sh.c.perThread w.c

/-- A collective as it issues: the caravan, its mask and the word. -/
structure LCtx where
  n : Nat
  slot : Nat
  pc : Nat
  now : Nat
  task : Task
  g : Gathering
  c : Caravan
  mask : Nat
  w : LongW
  deriving DecidableEq, Repr

/-- A source as a collective reads it: LANE is the lowest lane of the mask (R265). -/
def LCtx.read (x : LCtx) (s : Nat) : Word := x.c.read x.now s ((maskLanes x.mask).headD 0)

def LCtx.va (x : LCtx) : Word := x.read x.w.a
def LCtx.vb (x : LCtx) : Word := x.read x.w.b
def LCtx.vc (x : LCtx) : Word := x.read x.w.c

def LCtx.fault (x : LCtx) (kind : Nat) : Act := programFault x.task.id x.n x.slot kind

end Sys2Proof.Machine
end

