-- ==== Sys2Proof/Machine/Run.lean ====
section
/-! DEFINITION. How a command runs: its change is carried out on the device, and the queue stays as it is. -/

namespace Sys2Proof.Machine

/-- The device works: the rails are in regulation, RESET_N is high, and boot has not failed (R78, R92, R99). -/
def Dev.alive (d : Dev) : Bool :=
  d.eng.pwr.good && d.eng.pwr.resetN && d.fld PWR_BOOT_STATUS_PHASE != 0xF

/-- A command that the device carries out in any power state. -/
def raw (a : Act) (s : State) : Host.Outcome State Fault Refusal := .next { s with d := a.run s.d }

/-- A command that has its effect only while the device works (log 1). -/
def cmd (a : Act) (s : State) : Host.Outcome State Fault Refusal :=
  raw (.dyn fun d => Act.when d.alive a) s

end Sys2Proof.Machine
end

