-- ==== Sys2Proof/Machine/Detect.lean ====
section
/-! DEFINITION. Automatic gating ends (03), and detected faults (18, 15, 10): fencing a quire, an array or a channel, ending the tasks with work on it,
and what the ECC of a memory home finds. -/

namespace Sys2Proof.Machine

/-- A unit is ungated during the decode of an instruction for it (R91). -/
def ungateArrays (n : Nat) : Act := .eng fun e =>
  { e with pwr := { e.pwr with gatedArrays := e.pwr.gatedArrays.filter fun u => u / 4 != n } }
def ungateVector (n : Nat) : Act := .eng fun e =>
  { e with pwr := { e.pwr with gatedVecs := e.pwr.gatedVecs.filter fun u => u != n } }

/-- The tasks with a gathering resident on a quire. -/
def Dev.quireTasks (d : Dev) (n : Nat) : List Nat := ((d.quire n).gaths.map Gathering.task).eraseDups

/-- The tasks that wait for an access to a channel. -/
def Dev.chanTasks (d : Dev) (c : Nat) : List Nat :=
  let onChan := fun k : Nat => d.chanOf (k / 2 ^ 34) (k % 2 ^ 34 * 64) == c
  ((d.eng.axl.home.filter fun h => onChan h.line).map (fun h => d.ownerOf h.task) ++
    (d.eng.memWaits.filter fun w => w.want.any fun x => !x.host && onChan x.line).map fun w => d.ownerOf w.id).eraseDups

/-- End tasks by a detected fault (R573). -/
def endTasks (ids : List Nat) (kind : Nat) : Act := Act.each ids fun i => endTask i stFault kind

/-- Whether the fence of quire n leaves the rank partition with no active recto or no active verso quire (R575). -/
def Dev.lastOfKind (d : Dev) (n : Nat) : Bool :=
  match d.quirePart n with
  | some p => d.holdsRank p &&
      !((upTo 1536 fun m => d.quirePart m == some p && decide (m % 12 < 4) == decide (n % 12 < 4) && d.quireActive m).any
        fun _ => true)
  | none => false

/-- A fault that fences a quire: its gatherings are discarded, their tasks end, one record is sent, of severity RANK
where no quire of its kind is left (R570, R574, R575). -/
def fenceQuire (n kind unit : Nat) (detail : List Byte) : Act := .dyn fun d =>
  if d.quireFenced n then .skip
  else
    let p := (d.quirePart n).getD 0xFF
    .all [endTasks (d.quireTasks n) kind, fence (unitQuire n), updQuire n fun _ => Quire.idle,
      .eng fun e => { e with memWaits := e.memWaits.filter fun w => w.quire != n },
      .dyn fun d =>
        let f := faultOf d kind p unit detail
        faultRecord (if d.lastOfKind n then { f with severity := sevRank, rank := d.rankOf p } else f)]

/-- A fault in an array's control: the array is fenced and both weight sets of its quire's four arrays are zeroed; the
whole quire is fenced where arrays j and j XOR 2 or three arrays would be (R361, R365). -/
def fenceArray (n a kind : Nat) : Act := .dyn fun d =>
  if d.arrayFenced n a then .skip
  else
    if arraysLost ([0, 1, 2, 3].filter fun j => j == a || d.fenced (unitArray n j)) then
      fenceQuire n kind (unitQuire n) []
    else .all [endTasks (d.quireTasks n) kind, fence (unitArray n a),
      updQuire n fun q => { q with mtx := { q.mtx with set0 := WSet.zero, set1 := WSet.zero, loading := [] } },
      report kind ((d.quirePart n).getD 0xFF) (unitArray n a) []]

/-- Fence a channel: tasks that wait for it end, entries of its version table become unreadable and a partition's
frozen image is abandoned (R477, R490). -/
def fenceChan (c kind : Nat) : Act := .dyn fun d =>
  if d.chanFenced c then .skip
  else .all [endTasks (d.chanTasks c) kind, fence (unitChan c),
    .dyn fun d => match d.chanPart c with
      | some p => abandonFrozen p
      | none => .skip]

/-- An uncorrectable error in a line of a channel, found by an access of a task (0: none) or by the scrubber (R477,
R573). -/
def ueLine (c line p task : Nat) : Act := .dyn fun d =>
  if d.chanFenced c then .skip
  else .all [endTask task stFault fkUeDune, fenceChan c fkUeDune,
    Act.raise (DUN_STATUS_UE (c / 16)) (DUN_ECC_LAST_UE_TOTAL (c / 16)),
    Act.set (DUN_ECC_LAST_CHANNEL (c / 16)) (c % 16), Act.set (DUN_ECC_LAST_VALID (c / 16)) 1,
    Act.set (DUN_ECC_LAST_LINE (c / 16)) line,
    Act.add (DUN_ECC_COUNT_POISONED (c / 16) (c % 16)) 1,
    report fkUeDune p (unitChan c) (leBytes 4 line)]

/-- The same in a line of a partition. -/
def ueDune (p o task : Nat) : Act := .dyn fun d => ueLine (d.chanOf p o) (d.chanLine p o) p task

/-- A correction is counted; it is no fault (R476). -/
def corrected (p o : Nat) : Act := .dyn fun d =>
  let c := d.chanOf p o
  Act.when (!d.chanFenced c) (Act.add (DUN_ECC_COUNT_CORRECTED (c / 16) (c % 16)) 1)

/-- What the ECC finds in the first line that an access reads, then the access itself, which an uncorrectable error
leaves undone (R476, R477, R678; log 10). -/
def withEcc (e : Ecc) (p o task : Nat) (k : Act) : Act := .dyn fun d =>
  if d.chanFenced (d.chanOf p o) then k
  else match e with
    | .clean => k
    | .corrected => .seq (corrected p o) k
    | .uncorrectable => ueDune p o task

end Sys2Proof.Machine
end

