-- ==== Sys2Proof/Machine/Tiles.lean ====
section
/-! DEFINITION. Tile descriptors (10): the fields of a descriptor, the blocks it covers, the checks that it decides alone,
and the leaf operands that an MTX instruction reads or writes. -/

namespace Sys2Proof.Machine

/-! ### Shape of an instruction (R326, R331 to R336, R349) -/

/-- The fields of a tile descriptor (R331). -/
def tileOf (v : Nat) : Tile :=
  { aOff := field v 0 19, bOff := field v 32 19, saOff := field v 64 19, saPitch := field v 83 13,
    sbOff := field v 96 19, sbPitch := field v 115 13, lda := field v 128 16, ldb := field v 144 16,
    m := field v 160 9, n := field v 169 9, k := field v 178 9, logical := bit v 187, fmtA := field v 192 4,
    fmtB := field v 196 4, wset := field v 200 1, product := field v 201 1, cplx := bit v 202, rnd := field v 203 2,
    srBase := field v 224 32 }

def fFp32 : Nat := 0
def fFp4 : Nat := 5

/-- The dot depth of a format (R326); FP32 and complex operands enter as 16-bit ones. -/
def depth (fmt : Nat) : Nat := if fmt = 5 then 16 else if 3 ≤ fmt then 8 else 4

/-- Rows of a weight block. -/
def kp (fmt : Nat) : Nat := 8 * depth fmt

/-- The class within which formats pair (R329). -/
def pairClass (fmt : Nat) : Nat :=
  match fmt with
  | 1 | 2 => 1
  | 3 | 4 => 2
  | 6 => 3
  | 5 => 4
  | _ => 0

def pairs (a b : Nat) : Bool := pairClass a != 0 && pairClass a == pairClass b

/-- Bytes of an element; FP4 lies two to a byte (R333). -/
def esize (fmt : Nat) : Nat := if fmt = 0 ∨ fmt = 7 ∨ fmt = 8 then 4 else if fmt = 1 ∨ fmt = 2 then 2 else 1

/-- Bytes of a stored row of q elements. -/
def rowBytes (fmt : Nat) (cplx : Bool) (q : Nat) : Nat :=
  if fmt = 5 then (q + 1) / 2 else q * esize fmt * (if cplx then 2 else 1)

def MKind.isTile : MKind → Bool
  | .mtileF | .mtileB | .mtileX => true
  | _ => false

def MKind.isLoad : MKind → Bool
  | .mload | .mloadT => true
  | _ => false

/-- CPLX as the instruction reads it (R332). -/
def cplxOf (k : MKind) (t : Tile) : Bool :=
  match k with
  | .mtileX | .mload | .mloadT | .mstore => t.cplx
  | _ => false

/-- A is read through the transposed path (R343). -/
def transA (k : MKind) (t : Tile) : Bool := k == .mtileB && t.product == 1

/-- B is read through the transposed path (R342, R345). -/
def transB (k : MKind) (t : Tile) : Bool := k == .mloadT || (k == .mtileB && t.product == 0)

/-- Logical rows, columns and inner length: those of one block in physical form (R335). -/
def rowsOf (t : Tile) : Nat := if t.logical then t.m else 8
def colsOf (t : Tile) : Nat := if t.logical then t.n else 32
def innerOf (k : MKind) (t : Tile) : Nat :=
  if t.logical then t.k else if k == .mtileX then 32 else kp (if k.isLoad then t.fmtB else t.fmtA)

/-- Output blocks: by rows, by columns, and blocks of the inner length (R339). -/
def blocksM (t : Tile) : Nat := ceilDiv (rowsOf t) 8
def blocksN (t : Tile) : Nat := ceilDiv (colsOf t) 32
def blocksK (k : MKind) (t : Tile) : Nat := ceilDiv (innerOf k t) (if k == .mtileX then 32 else kp t.fmtA)

/-- Tiles of one part (T of R349). -/
def tilesPart (t : Tile) : Nat := blocksM t * blocksN t

/-- Tiles that an instruction covers, from the one it names (R349). -/
def tilesOf (k : MKind) (t : Tile) : Nat :=
  match k with
  | .mload | .mloadT => 0
  | .gsend => 8
  | k => tilesPart t * (if cplxOf k t then 2 else 1)

/-- Accumulator tiles of a quire (R348): physical recto quires are 0 to 3 of a signature. -/
def isRecto (n : Nat) : Bool := decide (n % 12 < 4)
def accTiles (n : Nat) : Nat := if isRecto n then 128 else 256

/-! ### Checks (R280, R329, R334, R336, R337, R344, R347, R350) -/

/-- The sizes lie in the range of the form. -/
def sizesOk (k : MKind) (t : Tile) : Bool :=
  let l := if k == .mstore then [t.m, t.n] else [t.m, t.n, t.k]
  if t.logical then l.all fun v => decide (1 ≤ v) && decide (v ≤ 256) else l.all (· == 0)

/-- ILLEGAL, as far as the descriptor and the signature's mode decide it. -/
def tileIllegal (fill : Bool) (k : MKind) (t : Tile) : Bool :=
  !sizesOk k t ||
  match k with
  | .mstore => !([0, 1, 2, 3, 4, 6].contains t.fmtA) || t.rnd == 3
  | .mload | .mloadT =>
    t.logical || decide (6 < t.fmtB) || (k == .mloadT && t.fmtB == fFp4) ||
      (t.cplx && !(t.fmtB == 1 || t.fmtB == 2))
  | .mtileX =>
    (t.logical && fill) ||
    (if t.cplx then !(t.fmtA == 1 || t.fmtA == 2) || (t.logical && !(t.fmtB == 1 || t.fmtB == 2))
     else t.fmtA != fFp32 || (t.logical && t.fmtB != fFp32))
  | k =>
    (t.logical && fill) || pairClass t.fmtA == 0 || (t.logical && !pairs t.fmtA t.fmtB) ||
    (t.fmtA == fFp4 && (k == .mtileB || (t.logical && t.k % 32 != 0)))

/-- An operand that the instruction reads or writes in the leaf: offset, pitch, stored rows and bytes of a row. -/
structure Extent where
  off : Nat
  pitch : Nat
  rows : Nat
  bytes : Nat
  deriving DecidableEq, Repr

/-- A stored operand of p rows and q columns, transposed or not. -/
def extent (off pitch fmt : Nat) (cplx trans : Bool) (p q : Nat) : Extent :=
  if trans then ⟨off, pitch, q, rowBytes fmt cplx p⟩ else ⟨off, pitch, p, rowBytes fmt cplx q⟩

/-- The leaf operands of an instruction (R332, R333, R345, R359). -/
def extents (k : MKind) (t : Tile) : List Extent :=
  let m := rowsOf t
  let n := colsOf t
  let kk := innerOf k t
  let cx := cplxOf k t
  match k with
  | .mstore => [extent t.aOff t.lda t.fmtA cx false m n]
  | .mload | .mloadT =>
    extent t.bOff t.ldb t.fmtB cx (transB k t) kk 32 ::
      (if t.fmtB = 5 then [⟨t.sbOff, t.sbPitch, 4, 32⟩] else [])
  | k =>
    [extent t.aOff t.lda t.fmtA cx (transA k t) m kk] ++
    (if t.fmtA = 5 then [⟨t.saOff, t.saPitch, m, ceilDiv kk 32⟩] else []) ++
    (if t.logical then
      extent t.bOff t.ldb t.fmtB cx (transB k t) kk n ::
        (if t.fmtB = 5 then [⟨t.sbOff, t.sbPitch, ceilDiv kk 32, n⟩] else [])
     else [])

/-- MISALIGNED: an offset or pitch that the instruction reads is no multiple of 16. -/
def tileMisaligned (k : MKind) (t : Tile) : Bool :=
  let a := t.aOff % 16 != 0 || t.lda % 16 != 0
  let b := t.bOff % 16 != 0 || t.ldb % 16 != 0
  if k.isLoad then b else if k.isTile && t.logical then a || b else a

def Extent.outside (e : Extent) (size : Nat) : Bool := decide (size < e.off + (e.rows - 1) * e.pitch + e.bytes)

end Sys2Proof.Machine
end

