-- ==== Sys2Proof/Machine/Shapes.lean ====
section
/-! DEFINITION. The instruction set as a table (08): for each class and operation the fields that its word uses and what
makes the word ILLEGAL (R255, R259, R268 to R282, R396 to R399). -/

namespace Sys2Proof.Machine

/-! ### Base format (R268 to R279) -/

/-- The ALU shapes: A; A and B under some MOD bits; A, B and C; a predicate destination. -/
def shA : Shape := ⟨.dst 1, .src 1, .none, .none, 0, 0⟩
def shAB (mod : Nat) : Shape := ⟨.dst 1, .src 1, .src 1, .none, mod, 1⟩
def shABC : Shape := ⟨.dst 1, .src 1, .src 1, .src 1, 0, 1⟩
def shPred (mod : Nat) : Shape := ⟨.pred, .src 1, .src 1, .none, mod, 1⟩

/-- MOD[1:0] and MOD[3:2] of an FPU instruction must not be 3, and stochastic rounding takes no immediate (R269,
R272). -/
def fpuBad (w : BaseW) : Bool :=
  field w.mod 0 2 == 3 || field w.mod 2 2 == 3 || (field w.mod 0 2 == 2 && w.immEn)

/-- A rounded FPU instruction of two operands: SRC_C holds the index under stochastic rounding. -/
def shFpu2 (w : BaseW) : Shape := ⟨.dst 1, .src 1, .src 1, if field w.mod 0 2 = 2 then .index else .none, 0xF, 1⟩

/-- FFMA: under stochastic rounding SRC_C names an even register, the addend, and the index is in the next (R272). -/
def shFfma (w : BaseW) : Shape := ⟨.dst 1, .src 1, .src 1, if field w.mod 0 2 = 2 then .pair else .src 1, 0xF, 1⟩

/-- CVT (R271). -/
def shCvt (w : BaseW) : Shape := ⟨.dst 1, .src 1, .none, if field w.mod 8 2 = 2 then .index else .none, 0x3FF, 0⟩

def cvtBad (w : BaseW) : Bool :=
  decide (8 < field w.mod 0 4) || decide (8 < field w.mod 4 4) || field w.mod 8 2 == 3

/-- The width in bytes of MOD[4:2]. -/
def memBytes (w : BaseW) : Nat := 2 ^ field w.mod 2 3

/-- Registers that an access of n bytes takes. -/
def regsFor (n : Nat) : Nat := max 1 (n / 4)

/-- LD and ST (R274, R275). -/
def shLd (w : BaseW) : Shape := ⟨.dst (regsFor (memBytes w)), .base, .src 1, .none, 0x3F, 1⟩
def shSt (w : BaseW) : Shape := ⟨.src (regsFor (memBytes w)), .base, .src 1, .none, 0x1F, 1⟩

/-- A reserved space or width. -/
def memBad (w : BaseW) : Bool := field w.mod 0 2 == 3 || decide (4 < field w.mod 2 3)

/-- Bytes of an atomic. -/
def atomBytes (w : BaseW) : Nat := if bit w.mod 2 then 8 else 4

def shAtom (op : Nat) (w : BaseW) : Shape :=
  let k := regsFor (atomBytes w)
  ⟨if op = 7 then .dst (2 * k) else if bit w.mod 3 then .dst k else .none, .base, .src 1, .src k,
    if op = 1 ∨ op = 2 then 0x1F else 0xF, 0⟩

/-- The word is ILLEGAL beyond its shape: a reserved space, a CAS without RET, a host atomic other than ADD, SWAP or CAS
at 64 bits. -/
def atomBad (op : Nat) (w : BaseW) : Bool :=
  field w.mod 0 2 == 3 || (op == 7 && !bit w.mod 3) ||
  (field w.mod 0 2 == 2 && (!(op == 0 || op == 6 || op == 7) || !bit w.mod 2))

/-- No operand at all. -/
def shNone : Shape := ⟨.none, .none, .none, .none, 0, 0⟩

/-- ARRIVE and AWAIT: A, or the immediate in its place (R277). -/
def shCounter (w : BaseW) : Shape := ⟨.none, if w.immEn then .none else .src 1, .none, .none, 0x1F, 1⟩

/-- The operations of a base class in the order of their codes: what the word uses, and whether it is ILLEGAL beyond that. -/
def baseForms (w : BaseW) : (cls : Nat) → List (Shape × Bool)
  | 0 => [(shA, false), (⟨.dst 1, .none, .none, .none, 0, 2⟩, false), (shAB 0, false), (shAB 0, false), (shAB 0, false),
      (shAB 1, false), (shABC, false), (shAB 0, false), (shAB 0, false), (shAB 0, false), (shAB 0, false), (shAB 1, false),
      (shAB 1, false), (shAB 1, false), (shPred 0x1F, decide (5 < field w.mod 1 3)), (shPred 0xF, false), (shABC, false),
      (shA, false), (shA, false), (shAB 0, false), (shA, false)]
  | 1 => [(shFpu2 w, fpuBad w), (shFpu2 w, fpuBad w), (shFfma w, fpuBad w),
      (shAB 0xF, fpuBad w || field w.mod 0 2 != 0), (shAB 0xF, fpuBad w || field w.mod 0 2 != 0), (shA, false), (shA, false),
      (shA, false), (shA, false)]
  | 2 => [(shCvt w, cvtBad w)]
  | 3 => [(⟨.none, .src 1, .none, .none, 7, 2⟩, decide (4 < w.mod % 8)), (⟨.none, .src 1, .src 1, .none, 7, 1⟩, decide (4 < w.mod % 8)),
      (shNone, false), (shNone, false)]
  | 4 => [(shLd w, memBad w), (shSt w, memBad w)]
  | 5 => (List.range 8).map fun op => (shAtom op w, atomBad op w)
  | 6 => [(⟨.none, if bit w.mod 0 then .none else .src 1, .none, .none, 1, 0⟩, false), (⟨.none, .src 1, .none, .none, 0xF, 0⟩, false),
      (shCounter w, false), (shCounter w, false), (⟨.none, .src 1, .src 1, .none, 0, 1⟩, false),
      (⟨.predOrGz, .src 1, .src 1, .none, 0, 1⟩, false), (⟨.none, .none, .none, .none, 3, 0⟩, w.mod % 4 == 3)]
  | _ => []

/-- What a base instruction uses of its word: none for an operation that its class does not list (R259, R267). -/
def baseForm (cls op : Nat) (w : BaseW) : Option (Shape × Bool) := (baseForms w cls)[op]?

/-- What it uses, where it is listed. -/
def baseShape (cls op : Nat) (w : BaseW) : Shape := ((baseForm cls op w).map Prod.fst).getD shNone

/-- The base word is ILLEGAL (R255, R259 to R261, R264, R269 to R279). -/
def baseIllegal (cls op : Nat) (w : BaseW) : Bool :=
  match baseForm cls op w with
  | some (sh, bad) => sh.illegal w || bad
  | none => true

/-! ### References and functions of the vector engine (R393, R398, R399) -/

def refScalar (r : Nat) : Bool := bit r 31
def refCache (r : Nat) : Bool := bit r 30
def refUreg (r : Nat) : Nat := r % 64

/-- Functions that exist only under WIDTH 0: the special functions and the conversions. -/
def vWide (f : Nat) : Bool := (decide (8 ≤ f) && decide (f ≤ 0xB)) || (decide (0x30 ≤ f) && decide (f ≤ 0x38))

def vRounds (f : Nat) : Bool := decide (f ≤ 3) || [0x31, 0x33, 0x34, 0x35, 0x37, 0x38].contains f

/-- The functions of VOP. -/
def vopOk (f : Nat) : Bool :=
  decide (f ≤ 0xB) || (decide (0x10 ≤ f) && decide (f ≤ 0x1A)) || (decide (0x20 ≤ f) && decide (f ≤ 0x25)) ||
  f == 0x28 || f == 0x29 || (decide (0x30 ≤ f) && decide (f ≤ 0x38))

/-- The functions of VRED (R410). -/
def vredOk (f : Nat) : Bool := [0x00, 0x04, 0x05, 0x06, 0x0C, 0x10, 0x19, 0x1A].contains f

/-- Functions with one operand. -/
def vOne (f : Nat) : Bool := vWide f || f == 6 || f == 7 || f == 0x29

/-- Functions that read D. -/
def vReadsD (f : Nat) : Bool := f == 3 || f == 0x28

/-! ### Long format (R280 to R282) -/

/-- The fields of EXT of a VEC instruction: COUNT, VFUNC, WIDTH, RND (R281). -/
def fieldsV (ext : Nat) : Nat × Nat × Nat × Nat := (field ext 0 13, field ext 13 6, field ext 19 2, field ext 21 2)

/-- The EXT bits are illegal for a kind: functions, widths and roundings (R281, R399, R418). -/
def vecIllegal (k : VKind) (ext : Nat) : Bool :=
  let (_, f, wd, rnd) := fieldsV ext
  decide (1 < wd) || rnd == 3 ||
  match k with
  | .vop => !vopOk f || (wd == 1 && vWide f) || (rnd != 0 && !vRounds f)
  | .vred => !vredOk f || rnd != 0
  | .dmask => f != 0 || wd != 0 || rnd != 0
  | _ => f != 0 || rnd != 0

/-- How SRC_C is used (R396). -/
def vecUseC (ext : Nat) : Use :=
  let (n, _, _, rnd) := fieldsV ext
  if rnd = 2 then (if n = 0 then .pair else .index) else if n = 0 then .src 1 else .none

/-- The shape of an instruction (R397). -/
def vecShape (k : VKind) (ext : Nat) : LShape :=
  let (_, f, _, _) := fieldsV ext
  let b := match k with
    | .vop => if vOne f then Use.none else .src 1
    | .vcompress | .vexpand | .dmask => .src 1
    | _ => .none
  ⟨true, .src 1, b, vecUseC ext, 0x7FFFFF⟩

/-- The uniform registers that an instruction's scalar references name, VCOMPRESS's k and DMASK's key (R393, R407). -/
def vecScalars (k : VKind) (x : LCtx) : List Nat :=
  let w := x.w
  let (_, f, _, _) := fieldsV w.ext
  let named := fun s : Nat => if refScalar (x.read s).toNat then [refUreg (x.read s).toNat] else []
  match k with
  | .vop => named w.dst ++ named w.a ++ (if vOne f then [] else named w.b)
  | .vred => named w.dst ++ named w.a
  | .vcompress => (match opnd w.dst with
    | .u r => [r + 1]
    | _ => [])
  | .dmask => keyRegs
  | _ => []

/-- The instructions whose SRC_A names a descriptor, or in the PROOF class the epoch value, with the EXT bits they define. -/
def shDesc (ext : Nat) : LShape := ⟨false, .src 1, .none, .none, ext⟩

/-- The VEC instructions and the MTX instructions by operation. -/
def vecKind (op : Nat) : Option VKind := [VKind.vop, .vcompress, .vexpand, .vred, .vld, .vst][op]?
def mtxKind (op : Nat) : Option MKind := [MKind.mtileF, .mtileB, .mtileX, .mload, .mloadT, .mstore][op]?

/-- A VEC instruction or DMASK: what it uses, and whether it is ILLEGAL beyond that. -/
def vecForm (k : VKind) (w : LongW) : LShape × Bool := (vecShape k w.ext, vecIllegal k w.ext)

/-- The operations of a long class in the order of their codes. -/
def longForms (w : LongW) : (cls : Nat) → List (LShape × Bool)
  | 8 => [(shDesc 0x1FF, false), (shDesc 0x1FF, false), (shDesc 0x1FF, false), (shDesc 0, false), (shDesc 0, false),
      (shDesc 0xFF, false)]
  | 9 => [vecForm .vop w, vecForm .vcompress w, vecForm .vexpand w, vecForm .vred w, vecForm .vld w, vecForm .vst w]
  | 10 => [(shDesc 0x1F, false), (shDesc 0x1E0, false), (shDesc 0x1E0, false)]
  | 11 => [vecForm .dmask w, (shDesc 0x1F, false), (shDesc 0xFF, false)]
  | 12 => [(shDesc 0, false), (shDesc 0, false), (shDesc 0, false)]
  | _ => []

/-- What a long instruction uses of its word: none for an operation that its class does not list (R259, R267). -/
def longForm (cls op : Nat) (w : LongW) : Option (LShape × Bool) := (longForms w cls)[op]?

def longShape (cls op : Nat) (w : LongW) : LShape := ((longForm cls op w).map Prod.fst).getD (shDesc 0)

/-- The long word is ILLEGAL (R255, R257, R259 to R261, R281, R396, R399). -/
def longIllegal (cls op : Nat) (w : LongW) : Bool :=
  match longForm cls op w with
  | some (sh, bad) => sh.illegal w || bad
  | none => true

end Sys2Proof.Machine
end

