-- ==== Sys2Proof/Machine/Fetch.lean ====
section
/-! DEFINITION. Instruction words in memory (08): the two formats with their fields, and the fetch of the instruction at a
program counter. -/

namespace Sys2Proof.Machine

/-! ### Formats (R255 to R257) -/

/-- The word of a base instruction (R256): class at bit 1, operation at 5, the operand fields, MOD at 53 and IMM at 63,
which puts the immediate in the place of SRC_B and SRC_C. -/
def baseWord (cls op : Nat) (w : BaseW) : Nat :=
  cls * 2 ^ 1 + op * 2 ^ 5 + w.guard * 2 ^ 12 + w.dst * 2 ^ 17 + w.a * 2 ^ 26 +
    (if w.immEn then w.imm * 2 ^ 35 else w.b * 2 ^ 35 + w.c * 2 ^ 44) + w.mod * 2 ^ 53 + bv w.immEn * 2 ^ 63

/-- The fields of a base word. -/
def BaseW.ofWord (v : Nat) : BaseW :=
  { guard := field v 12 5, dst := field v 17 9, a := field v 26 9, b := if bit v 63 then 0 else field v 35 9,
    c := if bit v 63 then 0 else field v 44 9, mod := field v 53 10, immEn := bit v 63,
    imm := if bit v 63 then field v 35 18 else 0 }

/-- The word pair of a long instruction as one number (R257): LONG at bit 0, then as the base format up to MOD at 53, CONT
at 64, EXT at 69, CMASK at 96. -/
def longWord (cls op : Nat) (w : LongW) : Nat :=
  1 + cls * 2 ^ 1 + op * 2 ^ 5 + w.guard * 2 ^ 12 + w.dst * 2 ^ 17 + w.a * 2 ^ 26 + w.b * 2 ^ 35 + w.c * 2 ^ 44 +
    w.mod * 2 ^ 53 + w.cont * 2 ^ 64 + w.ext * 2 ^ 69 + w.cmask.toNat * 2 ^ 96

/-- The fields of a long word pair. -/
def LongW.ofWord (v : Nat) : LongW :=
  { guard := field v 12 5, dst := field v 17 9, a := field v 26 9, b := field v 35 9, c := field v 44 9, mod := field v 53 11,
    cont := field v 64 5, ext := field v 69 27, cmask := BitVec.ofNat 32 (field v 96 32) }

/-- Class and operation of a first word. -/
def wordCls (v : Nat) : Nat := field v 1 4
def wordOp (v : Nat) : Nat := field v 5 7

/-! ### Fetch (R253 to R259) -/

/-- What stands at a program counter: a fault of the fetch itself, or an instruction. -/
inductive Fetched where
  | fault (kind : Nat)
  | base (cls op : Nat) (w : BaseW)
  | long (cls op : Nat) (w : LongW)
  deriving DecidableEq, Repr

/-- The first instruction and the length of the code (R251). -/
def Task.entry (t : Task) : Nat := leAt t.header 8 8
def Task.codeBytes (t : Task) : Nat := leAt t.header 16 4

/-- n bytes of code at a program counter, as the task sees memory. -/
def Dev.codeAt (d : Dev) (t : Task) (pc n : Nat) : Nat :=
  leNat (d.viewBytes t.part (d.taskView t.id) (t.entry + pc) n)

/-- An instruction of a length at a program counter can be read: it lies in the code region, in the memory presented, and is
not poisoned; else the fault (R253, R286, R287). -/
def Dev.codeFault (d : Dev) (t : Task) (pc n : Nat) : Option Nat :=
  if t.codeBytes < pc + n then some fkPcRange
  else if !d.inMemory t.part (t.entry + pc) n then some fkMemRange
  else if d.poisoned t.part (d.taskView t.id) (t.entry + pc) n then some fkPoison
  else none

/-- The instruction at a program counter of a task: PC_RANGE beyond the code; ILLEGAL where LONG differs from CLASS[3], the
class is reserved or does not list the operation. The second word of a long instruction has class 0xF, so a branch to it ends
here (R255, R258, R259). -/
def Dev.fetch (d : Dev) (t : Task) (pc : Nat) : Fetched :=
  match d.codeFault t pc 8 with
  | some k => .fault k
  | none =>
    let v := d.codeAt t pc 8
    if bit v 0 != bit (wordCls v) 3 then .fault fkIllegal
    else if !bit v 0 then
      (if (baseForm (wordCls v) (wordOp v) (BaseW.ofWord v)).isSome then .base (wordCls v) (wordOp v) (BaseW.ofWord v)
       else .fault fkIllegal)
    else if longForms (LongW.ofWord v) (wordCls v) = [] then .fault fkIllegal
    else match d.codeFault t pc 16 with
      | some k => .fault k
      | none =>
        let v := d.codeAt t pc 16
        if (longForm (wordCls v) (wordOp v) (LongW.ofWord v)).isSome then .long (wordCls v) (wordOp v) (LongW.ofWord v)
        else .fault fkIllegal

/-- The memory that the fetch at a program counter reads. -/
def Dev.fetchReads (d : Dev) (t : Task) (pc : Nat) : List (Nat × Nat × Nat) :=
  let n := if bit (d.codeAt t pc 8) 0 then 16 else 8
  if t.codeBytes < pc + n || !d.inMemory t.part (t.entry + pc) n || (d.version t.part (d.taskView t.id) ((t.entry + pc) / 4096)).isSome
  then [] else [(t.part, t.entry + pc, n)]

end Sys2Proof.Machine
end

