-- ==== Sys2Proof/Machine/Order.lean ====
section
/-! DEFINITION. Which leaf bytes an instruction is about to touch, and the MSTOREs and VSTs it must wait for (R324, R367,
R369, R406). -/

namespace Sys2Proof.Machine

/-! ### The bytes of an access -/

/-- Bytes of a gathering's allocation: the quire, the gathering, the offset and the length. -/
structure Span where
  quire : Nat
  task : Nat
  num : Nat
  off : Nat
  len : Nat
  deriving DecidableEq, Repr

def Span.meets (a b : Span) : Bool :=
  a.quire == b.quire && a.task == b.task && a.num == b.num && decide (a.off < b.off + b.len) && decide (b.off < a.off + a.len)

/-- The bytes at a place of a gathering on a quire. -/
def spanAt (x : Nat × Gathering) (off len : Nat) : Span := ⟨x.1, x.2.task, x.2.num, off, len⟩

/-- A device quire's signature is in cluster mode. -/
def Dev.cluster (d : Dev) (n : Nat) : Bool := d.sigCluster (n / 12)

/-- The address of a lane: the uniform pair of SRC_A plus SRC_B zero-extended or the immediate sign-extended (R274). -/
def Ctx.addr (x : Ctx) (l : Nat) : Nat :=
  (x.c.readGroup x.now x.w.a 2 l +
    (if x.w.immEn then (BitVec.ofInt 64 (signed 18 x.w.imm)).toNat else (x.vb l).toNat)) % 2 ^ 64

/-- The lanes that execute, with their addresses. -/
def Ctx.lanesAt (x : Ctx) : List (Nat × Nat) := x.exec.map fun l => (l, x.addr l)

/-- The leaf bytes that a MEM or ATOM instruction touches. -/
def Dev.laneSpans (d : Dev) (x : Ctx) (n : Nat) : List Span :=
  x.lanesAt.filterMap fun la => (d.leafAt x.n x.g la.2 n (d.cluster x.n)).map fun q => spanAt q (laOff la.2) n

/-- A descriptor at the local leaf address that SRC_A holds: none where its bytes lie outside the allocation. -/
def LCtx.descriptor (x : LCtx) (d : Dev) (bytes : Nat) : Option Nat :=
  let a := x.va.toNat
  match d.leafAt x.n x.g a bytes false with
  | some _ => some ((d.quire x.n).leafNat x.g (laOff a) bytes)
  | none => none

def LCtx.descSpan (x : LCtx) (bytes : Nat) : Span := spanAt (x.n, x.g) (laOff x.va.toNat) bytes

/-- The rows of a leaf operand. -/
def Extent.spans (e : Extent) (n task num : Nat) : List Span :=
  (List.range e.rows).map fun r => ⟨n, task, num, e.off + r * e.pitch, e.bytes⟩

def VOp.z (o : VOp) : Nat := if o.width = 0 then 4 else 2

/-- The leaf reference that a transfer names. -/
def VKind.leafRef (k : VKind) (d a : Nat) : Option Nat :=
  match k with
  | .vld => some a
  | .vst => some d
  | _ => none

/-- The bytes of the leaf that a transfer names, and the quire they lie on. -/
def Dev.vecLeaf (d : Dev) (n : Nat) (o : VOp) : Option (Nat × Gathering × Nat) :=
  match (d.quire n).gathering o.task o.gath, o.kind.leafRef o.d o.a with
  | some g, some a => (d.leafAt n g a (o.n * o.z) (d.cluster n)).map fun x => (x.1, x.2, laOff a)
  | _, _ => none

/-! ### Stores of collective instructions -/

/-- The bytes that a queued MSTORE is to write. -/
def MOp.stores (n : Nat) (o : MOp) : List Span :=
  if o.kind == .mstore then (extents .mstore o.desc).flatMap fun e => e.spans n o.task o.gath else []

/-- The bytes that a VST is to write. -/
def Dev.vstStores (d : Dev) (n : Nat) (o : VOp) : List Span :=
  if o.kind == .vst then
    match d.vecLeaf n o with
    | some (m, g, a) => [spanAt (m, g) a (o.n * o.z)]
    | none => []
  else []

/-- The vector instructions of a quire that have not ended. -/
def Quire.vecOps (q : Quire) : List VOp := q.vec.queue ++ q.vec.run.map VRun.op

/-- An instruction of some lanes comes before an access of lanes of a slot: they share a lane of its mask, or a barrier puts it
before them. -/
def Quire.before (q : Quire) (slot lanes oslot omask id : Nat) : Bool :=
  (oslot == slot && omask &&& lanes != 0) ||
  q.bars.any fun b => b.slot == slot && b.lanes &&& lanes != 0 && b.ids.contains id

/-- An access of lanes of a slot meets bytes of an MSTORE before it that have not been written. -/
def Dev.mstoreHolds (d : Dev) (n slot lanes : Nat) (spans : List Span) : Bool :=
  let q := d.quire n
  (q.mtx.queue.filter fun o => q.before slot lanes o.slot o.cmask o.id).any fun o =>
    (o.stores n).any fun s => spans.any s.meets

/-- The same for a VST. -/
def Dev.vstHolds (d : Dev) (n slot lanes : Nat) (spans : List Span) : Bool :=
  let q := d.quire n
  (q.vecOps.filter fun o => q.before slot lanes o.slot o.cmask o.id).any fun o =>
    (d.vstStores n o).any fun s => spans.any s.meets

def Dev.storeHolds (d : Dev) (n slot lanes : Nat) (spans : List Span) : Bool :=
  d.mstoreHolds n slot lanes spans || d.vstHolds n slot lanes spans

/-- A barrier has completed: the MSTOREs and VSTs of its participants, and those before them, come before the later accesses
of the threads it releases (R324). Each participant is a slot with its lanes. -/
def Quire.orderBar (q : Quire) (parts freed : List (Nat × Nat)) : Quire :=
  let pending := (q.mtx.queue.filter fun o => o.kind == .mstore).map (fun o => (o.slot, o.cmask, o.id)) ++
    (q.vecOps.filter fun o => o.kind == .vst).map fun o => (o.slot, o.cmask, o.id)
  let ids := (pending.filter fun o => parts.any fun p => q.before p.1 p.2 o.1 o.2.1 o.2.2).map fun o => o.2.2
  let live := q.bars.filter fun b => b.ids.any fun i => pending.any fun o => o.2.2 == i
  { q with bars := live ++ if ids = [] then [] else (freed.filter fun p => p.2 != 0).map fun p => ⟨p.1, p.2, ids⟩ }

end Sys2Proof.Machine
end

