-- ==== Sys2Proof/Machine/Issue.lean ====
section
/-! DEFINITION. The issue of an instruction (07, 08): when its operands are ready and its unit can take it (R225, R266), which
caravan of a quire and which of its paths go next (R224 to R226, R676), the faults in the order of R287, and the collective rules (R240 to R243). -/

namespace Sys2Proof.Machine

/-! ### The reduction pool (R466, R467, R500, R545) -/

/-- The bytes of a partition's reduction pool. -/
def Dev.redPool (d : Dev) (p : Nat) : Nat :=
  popBits (chanMap d.eng.cfg.base p) 512 * poolReduction d.eng.cfg.base * 4096

/-- The GSENDs of a partition that have issued and not been sent yet. -/
def Dev.gsendsQueued (d : Dev) (p : Nat) : List MOp :=
  d.eng.quires.flatMap fun kv =>
    if d.quirePart kv.1 == some p then kv.2.mtx.queue.filter fun o => o.kind == .gsend else []

/-- The bytes in use: the windows of the rank partition, and the packets kept until their answer. -/
def Dev.redPoolUsed (d : Dev) (p : Nat) : Nat :=
  (if d.holdsRank p then 256 * d.rankCount else 0) +
  4160 * ((d.eng.red.sends.filter fun x => x.part == p).length + (d.gsendsQueued p).length)

/-- Copies, gathers and gradient sends outstanding on a quire (R310, R435, R500). -/
def Dev.outstanding (d : Dev) (n : Nat) : Nat :=
  let q := d.quire n
  q.copies.length + q.gathers.length + (q.mtx.queue.filter fun o => o.kind == .gsend).length +
    (d.eng.red.sends.filter fun x => x.quire == n).length

/-! ### What holds an instruction back -/

/-- The partition memory that an ACOPY reads. -/
def Dev.acopyReads (d : Dev) (x : LCtx) : List (Nat × Nat × Nat) :=
  match x.descriptor d 16 with
  | some v =>
    if field v 48 2 == 1 && d.inMemory x.task.part (field v 0 48) (field v 112 16 * 16) then
      [(x.task.part, field v 0 48, field v 112 16 * 16)]
    else []
  | none => []

/-- A MEM or ATOM instruction waits for a FENCE of its lanes, and in the leaf for the MSTOREs and VSTs before it (R278,
R369, R406). -/
def Dev.baseHeld (d : Dev) (x : Ctx) (cls : Nat) : Bool :=
  (cls == 4 || cls == 5) &&
  let m := laneMask x.exec
  let n := if cls == 4 then memBytes x.w else atomBytes x.w
  d.fenceHolds x.n x.slot m || (field x.w.mod 0 2 == 0 && d.storeHolds x.n x.slot m (d.laneSpans x n))

/-- An MTX instruction waits for room in the queue of eight, for a FENCE, for the stores before it into its descriptor, for
the VSTs before it into its operands, and an MSTORE that rounds stochastically for its key (R266, R284, R324, R350, R367). -/
def Dev.mtxHeld (d : Dev) (x : LCtx) (k : MKind) : Bool :=
  decide (8 ≤ (d.quire x.n).mtx.queue.length) || d.fenceHolds x.n x.slot x.mask ||
  d.storeHolds x.n x.slot x.mask [x.descSpan 32] ||
  match x.descriptor d 32 with
  | some v => (k == .mstore && field v 203 2 == 2 && ((d.quire x.n).pendingUni x.slot).any keyRegs.contains) ||
      d.vstHolds x.n x.slot x.mask ((extents k (tileOf v)).flatMap fun e => e.spans x.n x.g.task x.g.num)
  | none => false

/-- The uniform registers that loads and atomics of a caravan have still to write. -/
def Dev.awaitedUni (d : Dev) (n slot : Nat) : List Nat :=
  (d.eng.memWaits.filter fun w => w.quire == n && w.slot == slot && w.ret).flatMap fun w =>
    Use.uniforms (.dst (regsFor w.width)) w.dst

/-- A VEC instruction or DMASK waits for room in the queue of four and for the scalars that its references name; VLD and VST
also for a FENCE and for the MSTOREs before them (R284, R369, R393, R406). -/
def Dev.vecHeld (d : Dev) (x : LCtx) (k : VKind) : Bool :=
  let (cnt, _, wd, _) := fieldsV x.w.ext
  let n := if cnt = 0 then x.vc.toNat else cnt
  let z := if wd = 0 then 4 else 2
  decide (4 ≤ (d.quire x.n).vec.queue.length) ||
  ((d.quire x.n).pendingUni x.slot ++ d.awaitedUni x.n x.slot).any (vecScalars k x).contains ||
  match k.leafRef (x.read x.w.dst).toNat x.va.toNat with
  | some a => d.fenceHolds x.n x.slot x.mask ||
      match d.leafAt x.n x.g a (n * z) (d.cluster x.n) with
      | some q => d.mstoreHolds x.n x.slot x.mask [spanAt q (laOff a) (n * z)]
      | none => false
  | none => false

/-- An instruction with a descriptor in the leaf waits for the FENCE of its threads and for the stores of its caravan into the
descriptor (R324, R369). -/
def Dev.descHeld (d : Dev) (x : LCtx) : Bool :=
  d.fenceHolds x.n x.slot x.mask || d.storeHolds x.n x.slot 0xFFFFFFFF [x.descSpan 16]

/-- The leaf bytes that an ACOPY reads and writes. -/
def Dev.acopySpans (d : Dev) (x : LCtx) : List Span :=
  match x.descriptor d 16 with
  | some v =>
    let n := field v 112 16 * 16
    let at_ := fun space a => if space = 0 then (d.leafAt x.n x.g a n true).toList.map fun q => spanAt q (laOff a) n else []
    at_ (field v 48 2) (field v 0 48) ++ at_ (field v 50 2) (field v 64 48)
  | none => []

/-- ACOPY: at most 64 copies, gathers and sends are outstanding, its leaf bytes are written, and the host has given back the
lines it reads (R141, R310, R369). -/
def Dev.acopyHeld (d : Dev) (x : LCtx) : Bool :=
  decide (64 ≤ d.outstanding x.n) || d.descHeld x || d.storeHolds x.n x.slot 0xFFFFFFFF (d.acopySpans x) ||
  ((d.acopyReads x).map fun r => d.hostBusy r.1 r.2.1 r.2.2).flatten != []

/-- GSEND: the matrix queue, the access engine and the reduction pool have room (R284, R500). -/
def Dev.gsendHeld (d : Dev) (x : LCtx) : Bool :=
  decide (8 ≤ (d.quire x.n).mtx.queue.length) || decide (64 ≤ d.outstanding x.n) || d.descHeld x ||
  decide (d.redPool x.task.part < d.redPoolUsed x.task.part + 4160) ||
  decide (65536 ≤ (d.eng.red.sends.filter fun s => s.part == x.task.part).length)

/-- The unit of a long instruction cannot take it now. -/
def Dev.longHeld (d : Dev) (x : LCtx) (cls op : Nat) : Bool :=
  match cls, op with
  | 8, op => match mtxKind op with
    | some k => d.mtxHeld x k
    | none => false
  | 9, op => match vecKind op with
    | some k => d.vecHeld x k
    | none => false
  | 10, 0 => d.acopyHeld x
  | 10, 1 => ((d.quire x.n).stream (field x.w.ext 5 4)).state != 0 || d.descHeld x
  | 11, 0 => d.vecHeld x .dmask
  | 11, 1 => d.descHeld x || (decide (64 ≤ d.outstanding x.n) && !((x.descriptor d 16).any fun v => bit v 105))
  | 11, 2 => d.gsendHeld x
  | 12, 1 => d.eng.proof.commits.any fun w => w.quire == x.n && w.slot == x.slot && w.pc == x.pc && w.mask == x.mask
  | _, _ => false

/-! ### What an instruction does if it issues now -/

/-- What becomes of the instruction at a program counter: it is not issuable, faults, is passed by, makes its threads wait for
the others of its mask, or runs. -/
inductive Verdict where
  | held
  | fault (kind : Nat)
  | pass
  | wait
  | run
  deriving DecidableEq, Repr

/-- A base instruction: ILLEGAL and REG_RANGE first (R287), then its operands and its unit (R225, R266). -/
def Dev.baseVerdict (d : Dev) (x : Ctx) (cls op : Nat) : Verdict :=
  let sh := baseShape cls op x.w
  if x.path = [] then .held
  else if baseIllegal cls op x.w then .fault fkIllegal
  else if sh.outOfRange x.w x.task.regs then .fault fkRegRange
  else if (((d.quire x.n).pendingUni x.slot).any fun u => (sh.uniforms x.w).contains u) || d.baseHeld x cls then .held
  else .run

/-- The threads of a caravan that wait at a collective. -/
def Caravan.collWait (c : Caravan) (pc m : Nat) : List Nat := lanes.filter fun l => c.thread l == .waitColl pc m

/-- A long instruction: ILLEGAL, OPERAND_KIND and COLL_MASK first; then a path outside the mask passes, one that does not
complete the mask waits, and the last one makes it run (R240 to R242). -/
def Dev.longVerdict (d : Dev) (x : LCtx) (cls op : Nat) : Verdict :=
  let sh := longShape cls op x.w
  let path := x.c.path x.pc
  let here := path.filter (bit x.mask) ++ x.c.collWait x.pc x.mask
  let uses := (if sh.dst then Use.uniforms (.src 1) x.w.dst else []) ++ sh.a.uniforms x.w.a ++ sh.b.uniforms x.w.b ++
    sh.c.uniforms x.w.c
  if path = [] && here = [] then .held
  else if longIllegal cls op x.w then .fault fkIllegal
  else if sh.perThread x.w then .fault fkOperandKind
  else if x.mask = 0 then .fault fkCollMask
  else if here != [] && (x.c.live.filter (bit x.mask)).all here.contains then
    (if ((d.quire x.n).pendingUni x.slot).any uses.contains || d.longHeld x cls op then .held else .run)
  else if path = [] then .held
  else if path.all fun l => !bit x.mask l then .pass
  else .wait

/-! ### The next path of a caravan (R226) -/

/-- The instruction of a path as it issues. -/
def Dev.ctx (d : Dev) (s : Sel) (c : Caravan) (g : Gathering) (t : Task) (w : BaseW) : Ctx :=
  { n := s.quire, slot := s.slot, pc := s.pc, now := d.now, task := t, g := g, c := c, path := c.path s.pc,
    exec := c.guarded w.guard (c.path s.pc), w := w }

def Dev.lctx (d : Dev) (s : Sel) (c : Caravan) (g : Gathering) (t : Task) (w : LongW) : LCtx :=
  { n := s.quire, slot := s.slot, pc := s.pc, now := d.now, task := t, g := g, c := c, mask := w.cmask.toNat, w := w }

/-- Lines of the code at a program counter that the host has still to give back (R141). -/
def Dev.fetchBusy (d : Dev) (t : Task) (pc : Nat) : List Nat :=
  (d.fetchReads t pc).flatMap fun r => d.hostBusy r.1 r.2.1 r.2.2

/-- The unit of an instruction of which a quire has one: 1 for MEM and ATOM, 2 for TALLY.ADD and TALLY.WAIT, 0 none (R283). -/
def unitOf (cls op : Nat) : Nat :=
  if cls == 4 || cls == 5 then 1 else if cls == 6 && (op == 4 || op == 5) then 2 else 0

/-- An issue of this tcycle has filled the unit (R676). -/
def Dev.unitFull (d : Dev) (n u : Nat) : Bool := u != 0 && d.eng.tcyc.issued.any fun x => x.quire == n && x.unit == u

/-- The path at a program counter, or the collective that waits there, is issuable (R225). -/
def Dev.issuable (d : Dev) (s : Sel) : Bool :=
  match d.running s.quire s.slot with
  | none => false
  | some (c, g, t) =>
    d.fetchBusy t s.pc = [] &&
    match d.fetch t s.pc with
    | .fault _ => c.path s.pc != []
    | .base cls op w => d.baseVerdict (d.ctx s c g t w) cls op != .held && !d.unitFull s.quire (unitOf cls op)
    | .long cls op w => d.longVerdict (d.lctx s c g t w) cls op != .held

/-- The program counters at which a caravan has a path or a waiting collective. -/
def Caravan.places (c : Caravan) : List Nat :=
  (lanes.filterMap fun l => match c.thread l with
    | .active => some (c.pc l)
    | .waitColl pc _ => some pc
    | _ => none).eraseDups

/-- The program counters of the issuable paths of a slot. -/
def Dev.ready (d : Dev) (n slot : Nat) : List Nat :=
  match d.caravan n slot with
  | some c => c.places.filter fun pc => d.issuable ⟨n, slot, pc⟩
  | none => []

/-- Through how many issues of its caravan for other paths a thread has stayed issuable. -/
def Caravan.passes (c : Caravan) (l : Nat) : Nat := Store.get zeroNat l c.passed

/-- The least of some numbers. -/
def least (l : List Nat) : Option Nat := l.foldl (fun m x => match m with
  | some y => some (min x y)
  | none => some x) none

/-- The path that issues next: of those that stayed issuable through 16 issues for other paths, or else of all that are
issuable, the one with the lowest program counter (R226). A path has stayed so as long as some thread of it has. Every path
whose unit can take it counts as having its operands ready, as in the worked example of the lock (log 16). -/
def Dev.nextPath (d : Dev) (n slot : Nat) : Option Nat :=
  match d.caravan n slot with
  | some c =>
    let r := d.ready n slot
    (least (r.filter fun pc => (c.path pc).any fun l => decide (16 ≤ c.passes l))).or (least r)
  | none => none

/-- An issue at a program counter: each thread of another issuable path has stayed so through one more (R226). -/
def Caravan.count (c : Caravan) (pc : Nat) (ready : List Nat) : Caravan :=
  let n := fun l => if c.isActive l && c.pc l != pc && ready.contains (c.pc l) then c.passes l + 1 else 0
  { c with passed := setLanes zeroNat 0 lanes n c.passed }

/-- The lanes at a program counter. -/
def Caravan.laneSet (c : Caravan) (pc : Nat) : Nat := laneMask (c.path pc)

/-- Note an issue: its caravan begins to wait anew, as do the threads of the path (R225 to R227), and it takes its place in the
tcycle (R224, R676). -/
def countIssue (s : Sel) (unit : Nat) : Act := .dyn fun d =>
  let ls := ((d.caravan s.quire s.slot).map fun c => c.laneSet s.pc).getD 0
  .all [updCaravan s.quire s.slot fun c => { c.count s.pc (d.ready s.quire s.slot) with
      age := 0, waits := setLanes zeroNat 0 (lanes.filter (bit ls)) (fun _ => 0) c.waits },
    updQuire s.quire fun q => { q with lastSlot := s.slot },
    .eng fun e => { e with tcyc := { e.tcyc with issued := e.tcyc.issued ++ [⟨s.quire, s.slot, ls, unit⟩] } }]

/-! ### The next caravan of a quire (R224, R225, R676) -/

/-- The caravans that may issue now: issuable, and without an issue in this tcycle; a quire issues two in a tcycle. -/
def Dev.contenders (d : Dev) (n : Nat) : List Caravan :=
  let gone := d.eng.tcyc.issued.filter fun x => x.quire == n
  if 2 ≤ gone.length then []
  else (d.quire n).caravans.filter fun c => d.ready n c.slot != [] && !gone.any fun x => x.slot == c.slot

/-- The first of some caravans in an order. -/
def firstOf (l : List Caravan) (before : Caravan → Caravan → Bool) : Option Caravan :=
  l.foldl (fun m c => match m with
    | none => some c
    | some x => if before c x then some c else some x) none

/-- The slot that issues next: of the caravans that have been issuable for 1,024 tcycles without issuing the oldest, or else
the highest priority, round-robin in ascending slot number after the slot issued last (R225). -/
def Dev.nextSlot (d : Dev) (n : Nat) : Option Nat :=
  let cs := d.contenders n
  let turn := fun c : Caravan => if (d.quire n).lastSlot < c.slot then c.slot else c.slot + 64
  let aged := cs.filter fun c => decide (1024 ≤ c.age)
  (if aged != [] then firstOf aged fun a b => decide (b.age < a.age) || (a.age == b.age && decide (turn a < turn b))
   else firstOf cs fun a b => decide (b.prio < a.prio) || (a.prio == b.prio && decide (turn a < turn b))).map Caravan.slot

/-- What a tcycle does to a caravan: one that could issue and did not has waited one more, and so has each of its threads
whose path could (R225, R227). -/
def Caravan.waited (c : Caravan) (ready : List Nat) (gone : List Issued) : Caravan :=
  let idle := fun l => c.isActive l && ready.contains (c.pc l) && !gone.any fun x => bit x.lanes l
  { c with
    age := if ready != [] && gone == [] then c.age + 1 else 0
    waits := setLanes zeroNat 0 lanes (fun l => if idle l then Store.get zeroNat l c.waits + 1 else 0) c.waits }

/-- A quire at the end of a tcycle: its caravans wait, and THR_WAIT_MAX shows the longest wait of a thread so far (R227, R250). -/
def issueTick (n : Nat) : Act := .dyn fun d =>
  let step := fun c : Caravan => c.waited (d.ready n c.slot) (d.eng.tcyc.issued.filter fun x => x.quire == n && x.slot == c.slot)
  let worst := (d.quire n).caravans.foldl (fun m c => lanes.foldl (fun m l => max m (Store.get zeroNat l (step c).waits)) m) 0
  .all [updQuire n fun q => { q with caravans := q.caravans.map step },
    Act.when (decide (d.fld (THR_WAIT_MAX_TCYCLES n) < worst)) (Act.set (THR_WAIT_MAX_TCYCLES n) worst)]

/-! ### Issue -/

/-- The instruction at the program counter of the next path of the next caravan, fetched from memory. Code lines that the host
holds are asked back first. -/
def pathWork (s : Sel) (k : Caravan → Gathering → Task → Fetched → Act) : Act := .dyn fun d =>
  match d.running s.quire s.slot with
  | none => .skip
  | some (c, g, t) =>
    if c.places.contains s.pc && d.fetchBusy t s.pc != [] then Act.each (d.fetchBusy t s.pc) fun x => snoop x true
    else if d.nextSlot s.quire != some s.slot || d.nextPath s.quire s.slot != some s.pc then .skip
    else match d.fetch t s.pc with
      | .fault f => programFault t.id s.quire s.slot f
      | i => k c g t i

/-- The same, of a caravan whose task may have faulted elsewhere in this tcycle (R288). -/
def atPath (s : Sel) (k : Caravan → Gathering → Task → Fetched → Act) : Act := .dyn fun d =>
  if (d.running s.quire s.slot).isSome then pathWork s k else lateFault s.quire s.slot (pathWork s k)

/-- Issue a base-format instruction: nothing where the path does not go next or the word in memory is another; its faults;
else its own work. -/
def issue (s : Sel) (cls op : Nat) (w : BaseW) (k : Ctx → Act) : Act := atPath s fun c g t i => .dyn fun d =>
  let x := d.ctx s c g t w
  if i != .base cls op w then .skip
  else match d.baseVerdict x cls op with
    | .fault f => x.fault f
    | _ => .seq (countIssue s (unitOf cls op)) (k x)

/-- An instruction that gives each executing lane one value for DST. -/
def perLane (s : Sel) (cls op : Nat) (w : BaseW) (f : Ctx → Nat → Word) : Act :=
  issue s cls op w fun x => updCaravan x.n x.slot fun c => (c.write w.dst x.exec (f x)).advance x.path 8

/-- Issue a collective: nothing where its path does not go next or the word in memory is another; its faults; its threads
pass, or wait for the others of the mask, or the whole mask goes on and the instruction has its effect. -/
def issueLong (s : Sel) (cls op : Nat) (w : LongW) (k : LCtx → Act) : Act := atPath s fun c g t i => .dyn fun d =>
  let x := d.lctx s c g t w
  let path := c.path s.pc
  let inst := fun st : Stall => st.kind == 3 && st.slot == s.slot && st.pc == s.pc && st.mask == x.mask
  if i != .long cls op w then .skip
  else match d.longVerdict x cls op with
    | .fault f => x.fault f
    | .pass => .seq (countIssue s 0) (updCaravan s.quire s.slot fun c => c.advance path 16)
    | .wait => .all [countIssue s 0,
        updCaravan s.quire s.slot fun c =>
          (c.setThreads (path.filter (bit x.mask)) (.waitColl s.pc x.mask)).advance (path.filter fun l => !bit x.mask l) 16,
        startStall s.quire { kind := 3, slot := s.slot, task := c.task, gath := c.gath, bar := 0, pc := s.pc, mask := x.mask,
                             since := d.now, fired := none } inst,
        countWait s.quire]
    | _ => .all [countIssue s 0,
        updCaravan s.quire s.slot fun c =>
          let ws := c.collWait s.pc x.mask
          (c.setThreads ws .active).advance (path ++ ws) 16,
        dropStalls s.quire inst, k x]

end Sys2Proof.Machine
end

