-- ==== Sys2Proof/Machine/Num.lean ====
section
/-! DEFINITION. Number formats, rounding and exact arithmetic (11): values as sign, magnitude and power of two, the
three rounding modes, and the encodings of R371. -/

namespace Sys2Proof.Machine

/-! ### Values -/

/-- A value of a floating-point or integer format: fin is (-1)^neg * m * 2^e, a zero keeps its sign. -/
inductive Val where
  | nan
  | inf (neg : Bool)
  | fin (neg : Bool) (m : Nat) (e : Int)
  deriving DecidableEq, Repr

/-- The value of an integer. -/
def Val.ofInt (i : Int) : Val := .fin (decide (i < 0)) i.natAbs 0

/-- A zero of either sign. -/
def Val.isZero : Val → Bool
  | .fin _ m _ => m == 0
  | _ => false

/-- Infinite or NaN. -/
def Val.nonfinite : Val → Bool
  | .fin _ _ _ => false
  | _ => true

/-! ### Formats (R371) -/

/-- A floating-point format: exponent and mantissa bits, bias, the largest finite code, the code of infinity where there
is one, the canonical NaN where there is one, and whether rounding saturates (R380). -/
structure Fmt where
  eb : Nat
  mb : Nat
  bias : Nat
  maxCode : Nat
  infCode : Option Nat
  nanCode : Option Nat
  sat : Bool
  deriving DecidableEq, Repr

def fp32 : Fmt := ⟨8, 23, 127, 0x7F7FFFFF, some 0x7F800000, some 0x7FC00000, false⟩
def bf16 : Fmt := ⟨8, 7, 127, 0x7F7F, some 0x7F80, some 0x7FC0, false⟩
def fp16 : Fmt := ⟨5, 10, 15, 0x7BFF, some 0x7C00, some 0x7E00, false⟩
def e4m3 : Fmt := ⟨4, 3, 7, 0x7E, none, some 0x7F, true⟩
def e5m2 : Fmt := ⟨5, 2, 15, 0x7B, some 0x7C, some 0x7E, true⟩
def e2m1 : Fmt := ⟨2, 1, 1, 0x7, none, none, true⟩

/-- Bits of a format, sign included. -/
def Fmt.bits (f : Fmt) : Nat := 1 + f.eb + f.mb

/-- The floating-point format of a code of R271. -/
def fmtOf : Nat → Option Fmt
  | 0 => some fp32
  | 1 => some bf16
  | 2 => some fp16
  | 3 => some e4m3
  | 4 => some e5m2
  | 5 => some e2m1
  | _ => none

/-- The value of a code. -/
def Fmt.decode (f : Fmt) (x : Nat) : Val :=
  let x := x % 2 ^ f.bits
  let neg := bit x (f.eb + f.mb)
  let mag := x % 2 ^ (f.eb + f.mb)
  let ex := mag / 2 ^ f.mb
  let man := mag % 2 ^ f.mb
  if f.maxCode < mag then (if f.infCode = some mag then .inf neg else .nan)
  else if ex = 0 then .fin neg man (1 - (f.bias : Int) - f.mb)
  else .fin neg (2 ^ f.mb + man) ((ex : Int) - f.bias - f.mb)

/-- The sign bit of a format. -/
def Fmt.sign (f : Fmt) (neg : Bool) : Nat := if neg then 2 ^ (f.eb + f.mb) else 0

/-- The canonical NaN; E2M1 has none and takes +0 (R373, R382). -/
def Fmt.nan (f : Fmt) : Nat := f.nanCode.getD 0

/-- An infinity: E4M3 takes its NaN, E2M1 plus or minus 6 (R382). -/
def Fmt.inf (f : Fmt) (neg : Bool) : Nat :=
  match f.infCode, f.nanCode with
  | some c, _ => c + f.sign neg
  | none, some n => n
  | none, none => f.maxCode + f.sign neg

/-! ### Rounding (R378 to R380) -/

/-- Modes: 0 nearest even, 1 toward zero, 2 deterministic stochastic with the generator word g. The kept part k, the
remainder r of 2^s: whether the result is k + 1. -/
def roundUp (mode : Nat) (g k r s : Nat) : Bool :=
  if r = 0 then false
  else match mode with
    | 0 => decide (2 ^ s < 2 * r) || (2 * r == 2 ^ s && k % 2 == 1)
    | 1 => false
    | _ => decide (2 ^ 32 ≤ r * 2 ^ 32 / 2 ^ s + g)

/-- m * 2^e as a whole number of quanta 2^q, rounded. -/
def quantize (mode g m : Nat) (e q : Int) : Nat :=
  if q ≤ e then m * 2 ^ (e - q).toNat
  else
    let s := (q - e).toNat
    let k := m / 2 ^ s
    if roundUp mode g k (m % 2 ^ s) s then k + 1 else k

/-- The magnitude code of k quanta of a format whose quantum is 2^q. -/
def Fmt.encode (f : Fmt) (k : Nat) (q : Int) : Nat :=
  let l := Nat.log2 k
  let ex : Int := l + q + f.bias
  if k = 0 then 0
  else if ex ≤ 0 then k
  else ex.toNat * 2 ^ f.mb + ((if l ≤ f.mb then k * 2 ^ (f.mb - l) else k / 2 ^ (l - f.mb)) - 2 ^ f.mb)

/-- Round an exact value to a floating-point format. -/
def Fmt.round (f : Fmt) (mode : Nat) (g : Word) : Val → Nat
  | .nan => f.nan
  | .inf neg => f.inf neg
  | .fin neg m e =>
    let top : Int := Nat.log2 m + e
    let q := max top (1 - (f.bias : Int)) - f.mb
    let c := f.encode (quantize mode g.toNat m e q) q
    if m = 0 then f.sign neg
    else if c ≤ f.maxCode then c + f.sign neg
    else if f.sat || mode == 1 then f.maxCode + f.sign neg
    else f.inf neg

/-- Round an exact value to a signed or unsigned integer of w bits, saturated (R380, R382). -/
def roundInt (w : Nat) (sgn : Bool) (mode : Nat) (g : Word) : Val → Nat
  | .nan => 0
  | .inf neg => if neg then (if sgn then 2 ^ (w - 1) else 0) else if sgn then 2 ^ (w - 1) - 1 else 2 ^ w - 1
  | .fin neg m e =>
    let k := quantize mode g.toNat m e 0
    let hi := if sgn then 2 ^ (w - 1) - 1 else 2 ^ w - 1
    let lo := if sgn then 2 ^ (w - 1) else 0
    if neg then (2 ^ w - min k lo) % 2 ^ w else min k hi

/-- The value of a code in a format of R271: the integer formats are 6 INT8, 7 INT32 and 8 UINT32. -/
def decodeAs (fmt x : Nat) : Val :=
  match fmtOf fmt with
  | some f => f.decode x
  | none => .ofInt (match fmt with
    | 6 => signed 8 x
    | 7 => signed 32 x
    | _ => x % 2 ^ 32)

/-- The code of a value rounded to a format of R271. -/
def roundAs (fmt mode : Nat) (g : Word) (v : Val) : Nat :=
  match fmtOf fmt with
  | some f => f.round mode g v
  | none => match fmt with
    | 6 => roundInt 8 true mode g v
    | 7 => roundInt 32 true mode g v
    | _ => roundInt 32 false mode g v

/-- CVT (R382). -/
def convert (src dst mode : Nat) (g : Word) (x : Nat) : Nat := roundAs dst mode g (decodeAs src x)

/-! ### Exact arithmetic (R375, R376) -/

def Val.neg : Val → Val
  | .nan => .nan
  | .inf n => .inf !n
  | .fin n m e => .fin (!n) m e

def Val.mul : Val → Val → Val
  | .nan, _ => .nan
  | _, .nan => .nan
  | .inf n, .inf n' => .inf (n != n')
  | .inf n, .fin n' m _ => if m = 0 then .nan else .inf (n != n')
  | .fin n m _, .inf n' => if m = 0 then .nan else .inf (n != n')
  | .fin n m e, .fin n' m' e' => .fin (n != n') (m * m') (e + e')

/-- A product of two elements of a format of R271: the integers have no -0 (R371, R375). -/
def mulAs (fmt : Nat) (a b : Val) : Val :=
  let v := a.mul b
  if 6 ≤ fmt && v.isZero then .fin false 0 0 else v

/-- Multiply by a power of two. -/
def Val.scale : Val → Int → Val
  | .fin n m e, k => .fin n m (e + k)
  | v, _ => v

/-- Add two values exactly; a zero sum is -0 only when both terms are -0. -/
def Val.add : Val → Val → Val
  | .nan, _ => .nan
  | _, .nan => .nan
  | .inf n, .inf n' => if n == n' then .inf n else .nan
  | .inf n, _ => .inf n
  | _, .inf n => .inf n
  | .fin n m e, .fin n' m' e' =>
    let lo := min e e'
    let a : Int := (m * 2 ^ (e - lo).toNat : Nat)
    let b : Int := (m' * 2 ^ (e' - lo).toNat : Nat)
    let s := (if n then -a else a) + (if n' then -b else b)
    if s = 0 then .fin (n && n') 0 lo else .fin (decide (s < 0)) s.natAbs lo

/-- An exact sum of terms. -/
def Val.sum : List Val → Val
  | [] => .fin false 0 0
  | v :: t => t.foldl Val.add v

/-- The trailing zeros of a number; 0 has none. -/
def trailing (m : Nat) : Nat := ((List.range (Nat.log2 m + 1)).find? (bit m)).getD 0

/-- A value with an odd significand. -/
def Val.odd : Val → Val
  | .fin n m e => .fin n (m / 2 ^ trailing m) (e + trailing m)
  | v => v

/-! ### Comparing -/

/-- The place of a code of a format in the order of its values, -0 below +0; not for NaN. -/
def Fmt.rank (f : Fmt) (x : Nat) : Int :=
  let mag : Int := (x % 2 ^ (f.eb + f.mb) : Nat)
  if bit x (f.eb + f.mb) then -mag - 1 else mag

def Fmt.isNan (f : Fmt) (x : Nat) : Bool := f.decode x == .nan

/-- FMIN and FMAX on codes of a format (R269). -/
def Fmt.minMax (f : Fmt) (isMax : Bool) (a b : Nat) : Nat :=
  if f.isNan a || f.isNan b then f.nan
  else if (f.rank a ≤ f.rank b) != isMax then a else b

/-- Whether a compare holds: 0 EQ, 1 NE, 2 LT, 3 LE, 4 GT, 5 GE. -/
def cmpHolds (c : Nat) (a b : Int) : Bool :=
  match c with
  | 0 => decide (a = b)
  | 1 => decide (a ≠ b)
  | 2 => decide (a < b)
  | 3 => decide (a ≤ b)
  | 4 => decide (b < a)
  | 5 => decide (b ≤ a)
  | _ => false

/-- An IEEE 754 compare of FP32 codes: with a NaN only NE holds; zeros are equal (R268). -/
def cmpFp32 (c a b : Nat) : Bool :=
  if fp32.isNan a || fp32.isNan b then c == 1
  else
    let key := fun x : Nat => if x % 2 ^ 31 = 0 then (0 : Int) else if bit x 31 then -((x % 2 ^ 31 : Nat) : Int) else x
    cmpHolds c (key a) (key b)

/-- A NaN becomes the canonical NaN (R373). -/
def canonNan (x : Word) : Word := if fp32.isNan x.toNat then BitVec.ofNat 32 0x7FC00000 else x

/-! ### Special functions (R270, R383) -/

/-- a * 2^i is at most, or below, b * 2^j. -/
def leP (a : Nat) (i : Int) (b : Nat) (j : Int) : Bool :=
  decide (a * 2 ^ (i - min i j).toNat ≤ b * 2 ^ (j - min i j).toNat)
def ltP (a : Nat) (i : Int) (b : Nat) (j : Int) : Bool := !leP b j a i

/-- The magnitude of an FP32 code in units of 2^-149, with 2^128 in the place of infinity. -/
def mag32 (c : Nat) : Nat := if c / 2 ^ 23 = 0 then c else (2 ^ 23 + c % 2 ^ 23) * 2 ^ (c / 2 ^ 23 - 1)

/-- An exact result that a special function approximates: its sign, and whether a number of units of 2^-149 is at most its
magnitude, or below it. -/
structure Exact where
  neg : Bool
  le : Nat → Bool
  lt : Nat → Bool

/-- The largest FP32 code whose magnitude is at most the exact one. -/
def Exact.floor (x : Exact) : Nat :=
  (List.range 31).foldl (fun c i =>
    let c' := c + 2 ^ (30 - i)
    if c' ≤ 0x7F800000 && x.le (mag32 c') then c' else c) 0

/-- A code lies less than 2 ulp from the exact result; an ulp is the step of FP32 at that result. -/
def Exact.near (x : Exact) (r : Nat) : Bool :=
  let f := x.floor
  let u := mag32 (f + 1) - mag32 f
  let c := r % 2 ^ 31
  let v := mag32 c
  decide (c ≤ 0x7F800000) &&
  if f = 0x7F800000 then c == f && bit r 31 == x.neg
  else if bit r 31 == x.neg then !x.le (v + 2 * u) && (decide (v < 2 * u) || x.lt (v - 2 * u))
  else decide (v < 2 * u) && !x.le (2 * u - v)

/-- 1 / x. -/
def exactRcp (neg : Bool) (m : Nat) (e : Int) : Exact :=
  ⟨neg, fun n => leP (n * m) (e - 149) 1 0, fun n => ltP (n * m) (e - 149) 1 0⟩

/-- 1 / sqrt x. -/
def exactRsq (m : Nat) (e : Int) : Exact :=
  ⟨false, fun n => leP (n * n * m) (e - 298) 1 0, fun n => ltP (n * n * m) (e - 298) 1 0⟩

/-- 2^x: beyond plus or minus 1,024 every FP32 magnitude compares as it does there. -/
def exactExp2 (neg : Bool) (m : Nat) (e : Int) : Exact :=
  let big := leP 1024 0 m e
  let e := if m = 0 then 0 else e
  let p : Int := (if neg then -1 else 1) * ((if big then 1024 else m * 2 ^ e.toNat : Nat) : Int)
  let k : Nat := if big then 1 else 2 ^ (-e).toNat
  ⟨false, fun n => leP (n ^ k) (-149 * (k : Int)) 1 p, fun n => ltP (n ^ k) (-149 * (k : Int)) 1 p⟩

/-- log2 x: its magnitude is below 2^8. -/
def exactLog2 (m : Nat) (e : Int) : Exact :=
  let neg := ltP m e 1 0
  let k : Nat → Nat := fun n => 2 ^ (149 - trailing n)
  let ek : Nat → Int := fun n => e * (k n : Int)
  let q : Nat → Int := fun n => ((n / 2 ^ min (trailing n) 149 : Nat) : Int)
  ⟨neg, fun n => decide (n < 2 ^ 157) && if neg then leP (m ^ k n) (ek n + q n) 1 0 else leP 1 (q n) (m ^ k n) (ek n),
    fun n => decide (n < 2 ^ 157) && if neg then ltP (m ^ k n) (ek n + q n) 1 0 else ltP 1 (q n) (m ^ k n) (ek n)⟩

/-- The exact result of an operand: none where there is no finite one that a bound of R270 could be held to. -/
def exactFn (x : Val) (f : (neg : Bool) → Nat → Int → Option Exact) : Option Exact :=
  match x.odd with
  | .fin neg m e => f neg m e
  | _ => none

/-- A special function on one lane: a fixed function of the operand, less than 2 ulp from the exact result where there is one;
NaNs of any sign and payload are alike (R270, R373; log 8). -/
def specialFn (f : Word → Word) (exact : (neg : Bool) → Nat → Int → Option Exact) (x : Word) : Word :=
  let r := canonNan (f (canonNan x))
  match exactFn (fp32.decode x.toNat) exact with
  | some e => if e.near r.toNat then r else BitVec.ofNat 32 (e.floor + if e.neg then 2 ^ 31 else 0)
  | none => r

/-- FRCP, FRSQ, FEXP2 and FLOG2: zero, and for FRSQ and FLOG2 a negative operand, have no finite result. -/
def frcp : Word → Word := specialFn Config.frcp fun neg m e => if m = 0 then none else some (exactRcp neg m e)
def frsq : Word → Word := specialFn Config.frsq fun neg m e => if m = 0 || neg then none else some (exactRsq m e)
def fexp2 : Word → Word := specialFn Config.fexp2 fun neg m e => some (exactExp2 neg m e)
def flog2 : Word → Word := specialFn Config.flog2 fun neg m e => if m = 0 || neg then none else some (exactLog2 m e)

end Sys2Proof.Machine
end

