-- ==== Sys2Proof/Machine/Alu.lean ====
section
/-! DEFINITION. The ALU class (R268). -/

namespace Sys2Proof.Machine

/-! ### Results -/

/-- The high half of a product, signed or unsigned. -/
def mulHigh (sgn : Bool) (a b : Word) : Word :=
  if sgn then BitVec.ofInt 32 (a.toInt * b.toInt / 2 ^ 32) else BitVec.ofNat 32 (a.toNat * b.toNat / 2 ^ 32)

/-- Shift right by B[4:0]. -/
def shiftRight (arith : Bool) (a : Word) (n : Nat) : Word :=
  if arith then a.sshiftRight (n % 32) else a >>> (n % 32)

/-- MIN and MAX. -/
def lesser (sgn isMax : Bool) (a b : Word) : Word :=
  let le := if sgn then a.sle b else a.ule b
  if le != isMax then a else b

/-- SETP: the compare of MOD[3:1], signed under MOD[0], as FP32 under MOD[4]. -/
def setp (mod : Nat) (a b : Word) : Bool :=
  let c := field mod 1 3
  if bit mod 4 then cmpFp32 c a.toNat b.toNat
  else if bit mod 0 then cmpHolds c a.toInt b.toInt
  else cmpHolds c a.toNat b.toNat

/-- PLOP: the truth table MOD[3:0]. -/
def plop (mod : Nat) (a b : Word) : Bool := bit mod (a.toNat % 2 * 2 + b.toNat % 2)

/-- Leading zeros of a word. -/
def clz (a : Word) : Nat := if a.toNat = 0 then 32 else 31 - Nat.log2 a.toNat

/-- A truth value as a word. -/
def flagWord (b : Bool) : Word := if b then 1 else 0

/-! ### Instructions -/

def execMov (sel : Sel) (w : BaseW) (s : State) : Host.Outcome State Fault Refusal :=
  cmd (perLane sel 0 0x00 w fun x l => x.va l) s

def execMovh (sel : Sel) (w : BaseW) (s : State) : Host.Outcome State Fault Refusal :=
  cmd (perLane sel 0 0x01 w fun x l =>
    BitVec.ofNat 32 (w.imm % 65536 * 65536 + (x.c.read x.now w.dst l).toNat % 65536)) s

def execIadd (sel : Sel) (w : BaseW) (s : State) : Host.Outcome State Fault Refusal :=
  cmd (perLane sel 0 0x02 w fun x l => x.va l + x.vb l) s

def execIsub (sel : Sel) (w : BaseW) (s : State) : Host.Outcome State Fault Refusal :=
  cmd (perLane sel 0 0x03 w fun x l => x.va l - x.vb l) s

def execImul (sel : Sel) (w : BaseW) (s : State) : Host.Outcome State Fault Refusal :=
  cmd (perLane sel 0 0x04 w fun x l => x.va l * x.vb l) s

def execImulh (sel : Sel) (w : BaseW) (s : State) : Host.Outcome State Fault Refusal :=
  cmd (perLane sel 0 0x05 w fun x l => mulHigh (bit w.mod 0) (x.va l) (x.vb l)) s

def execImad (sel : Sel) (w : BaseW) (s : State) : Host.Outcome State Fault Refusal :=
  cmd (perLane sel 0 0x06 w fun x l => x.va l * x.vb l + x.vc l) s

def execAnd (sel : Sel) (w : BaseW) (s : State) : Host.Outcome State Fault Refusal :=
  cmd (perLane sel 0 0x07 w fun x l => x.va l &&& x.vb l) s

def execOr (sel : Sel) (w : BaseW) (s : State) : Host.Outcome State Fault Refusal :=
  cmd (perLane sel 0 0x08 w fun x l => x.va l ||| x.vb l) s

def execXor (sel : Sel) (w : BaseW) (s : State) : Host.Outcome State Fault Refusal :=
  cmd (perLane sel 0 0x09 w fun x l => x.va l ^^^ x.vb l) s

def execShl (sel : Sel) (w : BaseW) (s : State) : Host.Outcome State Fault Refusal :=
  cmd (perLane sel 0 0x0A w fun x l => x.va l <<< ((x.vb l).toNat % 32)) s

def execShr (sel : Sel) (w : BaseW) (s : State) : Host.Outcome State Fault Refusal :=
  cmd (perLane sel 0 0x0B w fun x l => shiftRight (bit w.mod 0) (x.va l) (x.vb l).toNat) s

def execMin (sel : Sel) (w : BaseW) (s : State) : Host.Outcome State Fault Refusal :=
  cmd (perLane sel 0 0x0C w fun x l => lesser (bit w.mod 0) false (x.va l) (x.vb l)) s

def execMax (sel : Sel) (w : BaseW) (s : State) : Host.Outcome State Fault Refusal :=
  cmd (perLane sel 0 0x0D w fun x l => lesser (bit w.mod 0) true (x.va l) (x.vb l)) s

def execSetp (sel : Sel) (w : BaseW) (s : State) : Host.Outcome State Fault Refusal :=
  cmd (perLane sel 0 0x0E w fun x l =>
    flagWord (setp w.mod (x.va l) (x.vb l))) s

def execPlop (sel : Sel) (w : BaseW) (s : State) : Host.Outcome State Fault Refusal :=
  cmd (perLane sel 0 0x0F w fun x l => flagWord (plop w.mod (x.va l) (x.vb l))) s

def execSel (sel : Sel) (w : BaseW) (s : State) : Host.Outcome State Fault Refusal :=
  cmd (perLane sel 0 0x10 w fun x l => if (x.vc l).getLsbD 0 then x.va l else x.vb l) s

def execPopc (sel : Sel) (w : BaseW) (s : State) : Host.Outcome State Fault Refusal :=
  cmd (perLane sel 0 0x11 w fun x l => BitVec.ofNat 32 (popBits (x.va l).toNat 32)) s

def execClz (sel : Sel) (w : BaseW) (s : State) : Host.Outcome State Fault Refusal :=
  cmd (perLane sel 0 0x12 w fun x l => BitVec.ofNat 32 (clz (x.va l))) s

/-- SHFL reads the source lane's register whether or not that lane is in the path. -/
def execShfl (sel : Sel) (w : BaseW) (s : State) : Host.Outcome State Fault Refusal :=
  cmd (perLane sel 0 0x13 w fun x l => x.va ((x.vb l).toNat % 32)) s

def execVote (sel : Sel) (w : BaseW) (s : State) : Host.Outcome State Fault Refusal :=
  cmd (perLane sel 0 0x14 w fun x _ => BitVec.ofNat 32 (laneMask (x.exec.filter fun l => x.va l != 0))) s

end Sys2Proof.Machine
end

