-- ==== Sys2Proof/Machine/Fpu.lean ====
section
/-! DEFINITION. The FPU and CONV classes (R269 to R272, R378 to R383). -/

namespace Sys2Proof.Machine

/-- The format of MOD[3:2]: FP32, packed BF16, packed FP16. -/
def fpuFmt (mod : Nat) : Fmt :=
  match field mod 2 2 with
  | 0 => fp32
  | 1 => bf16
  | _ => fp16

/-- Apply a function to an FP32 value, or to each half of a packed value; the half number goes along (R383). -/
def byHalf (mod : Nat) (f : Nat → Nat → Nat) (x : Word) : Word :=
  if field mod 2 2 = 0 then BitVec.ofNat 32 (f 0 x.toNat)
  else BitVec.ofNat 32 (f 0 (x.toNat % 65536) + 65536 * f 1 (x.toNat / 65536))

/-- The half of a word that a packed instruction works on. -/
def halfOf (mod h : Nat) (x : Word) : Nat := if field mod 2 2 = 0 then x.toNat else x.toNat / 65536 ^ h % 65536

/-- Round each half of an exact result, with the generator's word for index and index + 1 (R381). -/
def fpuRound (mod : Nat) (key : List Word) (idx : Word) (f : Nat → Val) : Word :=
  byHalf mod (fun h _ => (fpuFmt mod).round (field mod 0 2) (genWord key (idx + BitVec.ofNat 32 h)) (f h)) 0

/-- A two-operand rounded instruction: SRC_C holds the index under stochastic rounding. -/
def fpu2 (sel : Sel) (code : Nat) (w : BaseW) (op : Val → Val → Val) : Act :=
  let dec := fun h x => (fpuFmt w.mod).decode (halfOf w.mod h x)
  perLane sel 1 code w fun x l =>
    fpuRound w.mod x.c.key (x.vc l) fun h => op (dec h (x.va l)) (dec h (x.vb l))

def execFadd (sel : Sel) (w : BaseW) (s : State) : Host.Outcome State Fault Refusal :=
  cmd (fpu2 sel 0x00 w Val.add) s

def execFmul (sel : Sel) (w : BaseW) (s : State) : Host.Outcome State Fault Refusal :=
  cmd (fpu2 sel 0x01 w Val.mul) s

/-- FFMA: under stochastic rounding SRC_C names an even register, the addend, and the index is in the next (R272). -/
def execFfma (sel : Sel) (w : BaseW) (s : State) : Host.Outcome State Fault Refusal :=
  let sr := field w.mod 0 2 == 2
  let dec := fun h x => (fpuFmt w.mod).decode (halfOf w.mod h x)
  cmd (perLane sel 1 0x02 w fun x l =>
    fpuRound w.mod x.c.key (if sr then x.c.read x.now (w.c + 1) l else 0) fun h =>
      Val.add (Val.mul (dec h (x.va l)) (dec h (x.vb l))) (dec h (x.vc l))) s

/-- FMIN and FMAX do not round; MOD[1:0] must be 0. -/
def fpuMinMax (sel : Sel) (w : BaseW) (isMax : Bool) : Act :=
  perLane sel 1 (if isMax then 0x04 else 0x03) w fun x l =>
    byHalf w.mod (fun h _ => (fpuFmt w.mod).minMax isMax (halfOf w.mod h (x.va l)) (halfOf w.mod h (x.vb l))) 0

def execFmin (sel : Sel) (w : BaseW) (s : State) : Host.Outcome State Fault Refusal :=
  cmd (fpuMinMax sel w false) s

def execFmax (sel : Sel) (w : BaseW) (s : State) : Host.Outcome State Fault Refusal :=
  cmd (fpuMinMax sel w true) s

def execFrcp (sel : Sel) (w : BaseW) (s : State) : Host.Outcome State Fault Refusal :=
  cmd (perLane sel 1 0x05 w fun x l => frcp (x.va l)) s

def execFrsq (sel : Sel) (w : BaseW) (s : State) : Host.Outcome State Fault Refusal :=
  cmd (perLane sel 1 0x06 w fun x l => frsq (x.va l)) s

def execFexp2 (sel : Sel) (w : BaseW) (s : State) : Host.Outcome State Fault Refusal :=
  cmd (perLane sel 1 0x07 w fun x l => fexp2 (x.va l)) s

def execFlog2 (sel : Sel) (w : BaseW) (s : State) : Host.Outcome State Fault Refusal :=
  cmd (perLane sel 1 0x08 w fun x l => flog2 (x.va l)) s

/-- CVT: from MOD[3:0] to MOD[7:4], rounding mode MOD[9:8] (R271, R382). -/
def execCvt (sel : Sel) (w : BaseW) (s : State) : Host.Outcome State Fault Refusal :=
  let rnd := field w.mod 8 2
  cmd (perLane sel 2 0x00 w fun x l =>
      BitVec.ofNat 32 (convert (field w.mod 0 4) (field w.mod 4 4) rnd (genWord x.c.key (x.vc l)) (x.va l).toNat)) s

end Sys2Proof.Machine
end

