-- ==== Sys2Proof/Machine/MemInstr.lean ====
section
/-! DEFINITION. The MEM and ATOM classes (R274 to R276) and the misses of their accesses (R228, R229). -/

namespace Sys2Proof.Machine

/-! ### Addresses and checks -/

/-- The folio of a quire. -/
def folioOf (n : Nat) : Nat := n / 192

/-- The range and window fault of an access, if any (R286, R287): a placement word is read by an aligned 32-bit LD only. -/
def Dev.memFault (d : Dev) (x : Ctx) (space n : Nat) (load write : Bool) : Option Nat :=
  let p := x.task.part
  let bad := fun a : Nat => match space with
    | 0 =>
      if laInfo a && !laBad a then !(load && n == 4) else (d.leafAt x.n x.g a n (d.cluster x.n)).isNone
    | 1 => !d.inMemory p a n
    | _ => !d.hostPermit p a n write
  if x.lanesAt.any fun la => la.2 % n != 0 then some fkMisaligned
  else if x.lanesAt.any fun la => bad la.2 then
    some (match space with | 0 => fkLeafRange | 1 => fkMemRange | _ => fkHostWindow)
  else if space = 2 && write && (d.taskView x.task.id).isSome then some fkProofHostWrite
  else none

/-- The lines that lanes touch. -/
def linesAt (la : List (Nat × Nat)) : List Nat := (la.map fun x => x.2 / 64).eraseDups

/-! ### Leaf accesses (R290, R298) -/

/-- The bank conflicts of a path's leaf accesses, in its own leaf or another's, and the cross-leaf requests, by 64-byte row. -/
def leafTraffic (x : Ctx) (n : Nat) (count : Bool) : Act := .dyn fun d =>
  let places := x.lanesAt.filterMap fun la =>
    (d.leafAt x.n x.g la.2 n (d.cluster x.n)).map fun q => (q.1, laOff la.2 / 64)
  let rows := places.eraseDups
  let worst := rows.foldl (fun m r => max m (rows.filter fun y => y.1 == r.1 && y.2 % 16 == r.2 % 16).length) 0
  .all [Act.when (count && decide (1 < worst)) (Act.add (THR_LEAF_COUNT_CONFLICT x.n) (worst - 1)),
    Act.each (rows.filter fun r => r.1 != x.n) fun r => Act.add (THR_LEAF_COUNT_CROSS_IN r.1) 1]

/-- What a leaf load returns to a lane. -/
def Dev.leafValue (d : Dev) (x : Ctx) (n a : Nat) : Nat :=
  if laInfo a then d.placementWord x.n x.g (laOff a)
  else match d.leafAt x.n x.g a n (d.cluster x.n) with
    | some (m, g) => (d.quire m).leafNat g (laOff a) n
    | none => 0

/-- Sign-extension of 8- and 16-bit loads. -/
def extend32 (n : Nat) (sext : Bool) (v : Nat) : Nat :=
  if sext && decide (n < 4) then (BitVec.ofInt 32 (signed (8 * n) v)).toNat else v

/-! ### Folio caches (R143, R472, R473) -/

/-- The folio holds a device line clean, as a view sees it: a lookup from outside an epoch never hits the epoch's copy
(R455). -/
def Dev.folioHolds (d : Dev) (view : Option Nat) (folio key : Nat) : Bool :=
  d.eng.dune.folios.any fun x => x.key == key && x.view == d.folioTag view key && bit x.folios folio

/-- The lines of a folio's cache: 8 MiB for each of its 16 ways that is not disabled (R104). -/
def Dev.folioRoom (d : Dev) (folio : Nat) : Nat := (16 - Store.get zeroNat folio d.eng.cfg.waysOff) * 131072

/-- Lines that a folio's cache holds, of devices and of the host. -/
def Dev.folioLines (d : Dev) (folio : Nat) : Nat :=
  (d.eng.dune.folios.filter fun x => bit x.folios folio).length + (d.eng.axl.filter.filter fun h => bit h.folios folio).length

/-- A full cache gives up a line before it takes another: the device line granted longest ago that it holds, or else the host
line (the spec states no order of replacement; log 114). -/
def makeRoom (folio : Nat) : Act := .dyn fun d =>
  let out := fun m : Nat => if bit m folio then m - 2 ^ folio else m
  if d.folioLines folio < d.folioRoom folio then .skip
  else match d.eng.dune.folios.find? fun x => bit x.folios folio with
    | some y => .eng fun e => { e with dune := { e.dune with
        folios := e.dune.folios.map fun x => if x == y then { x with folios := out x.folios } else x } }
    | none => match d.eng.axl.filter.find? fun h => bit h.folios folio with
      | some y => .eng fun e => { e with axl := { e.axl with
          filter := e.axl.filter.map fun h => if h == y then { h with folios := out h.folios } else h } }
      | none => .skip

/-- The dune base of a line's key. -/
def Dev.baseOf (d : Dev) (key : Nat) : Nat := d.chanOf (key / 2 ^ 34) (key % 2 ^ 34 * 64) / 16

/-- Grant a folio a device line of a view: a full directory first gives up its oldest entry, a full cache its oldest line
(R104, R455, R473). -/
def grantFolio (view : Option Nat) (key folio : Nat) : Act := .seq (makeRoom folio) <| .dyn fun d =>
  let b := d.baseOf key
  let tag := d.folioTag view key
  let mine := d.eng.dune.folios.filter fun x => d.baseOf x.key == b
  let here := fun x : FolioLine => x.key == key && x.view == tag
  if d.eng.dune.folios.any here then
    .eng fun e => { e with dune := { e.dune with
        folios := e.dune.folios.map fun x => if here x then { x with folios := x.folios ||| 2 ^ folio } else x } }
  else
    let full := decide (1048576 ≤ mine.length)
    .all [Act.when full (Act.add (DUN_DIR_RECALLS b) 1),
      .eng fun e => { e with dune := { e.dune with
        folios := (match mine with
          | x :: _ => if full then e.dune.folios.erase x else e.dune.folios
          | [] => e.dune.folios) ++ [⟨key, tag, 2 ^ folio⟩] } }]

/-- The host line in the folio caches, where the snoop filter records it for a partition's lookup in a folio (R170). -/
def Dev.hostLine (d : Dev) (part folio line : Nat) : Option HostLine :=
  d.eng.axl.filter.find? fun h => h.line == line && h.part == part && bit h.folios folio

/-! ### Waiting (R228 to R230) -/

/-- The path switches: each of its threads enters WAIT_MEM. -/
def Ctx.switch (x : Ctx) (id : Nat) : Act :=
  .all [updCaravan x.n x.slot fun c => c.setThreads x.path (.waitMem id), Act.add (THR_SWITCH_COUNT_MISSES x.n) 1]

/-- Register a demand access. -/
def addWait (w : MemWait) : Act := .eng fun e => { e with memWaits := e.memWaits ++ [w] }

def dropWait (id : Nat) : Act := .eng fun e => { e with memWaits := e.memWaits.filter fun w => w.id != id }

/-- The number in n bytes from an address among bytes that have arrived. -/
def gotNat (got : List (Nat × Byte)) (a n : Nat) : Nat :=
  leNat ((List.range n).map fun i => ((got.find? fun b => b.1 == a + i).map fun b => b.2).getD 0)

/-- A wait of an instruction, before its lines are known. -/
def Ctx.wait (x : Ctx) (id n : Nat) (host ret : Bool) : MemWait :=
  { id := id, quire := x.n, slot := x.slot, lanes := x.lanesAt, host := host, dst := x.w.dst, width := n, sext := false,
    ret := ret, atom := none, vals := [], old := [], got := [], want := [], poison := false }

/-- The access has its data: results go to the destination and the path returns to ACTIVE past the instruction. -/
def waitDone (w : MemWait) (f : Nat → Nat) : Act :=
  .all [dropWait w.id,
    updCaravan w.quire w.slot fun c =>
      let ls := lanes.filter fun l => c.thread l == .waitMem w.id
      let c := if w.ret then c.writeGroup w.dst (regsFor w.width) (w.lanes.map fun x => x.1) f else c
      (c.setThreads ls .active).advance ls 8]

/-- The device lines whose data a demand access waits for. -/
def MemWait.keys (w : MemWait) : List Nat := w.want.filterMap fun x => if x.host then none else some x.line

/-- The lines that the host must give back before a demand access of a view is carried out, each with whether SNP_SHARE is
enough: every held line for an atomic on committed memory; the lines held in E or M that the access reads there, and those
that a new version copies, otherwise (R141, R450). -/
def Dev.toAsk (d : Dev) (p : Nat) (view : Option Nat) (w : MemWait) : List (Nat × Bool) :=
  let unversioned := w.keys.filter fun k => (d.version p view (k % 2 ^ 34 / 64)).isNone
  match w.atom, view with
  | some _, none => (w.keys.filter fun k => (d.hostHolds k).isSome).map fun k => (k, false)
  | some _, some _ => (unversioned.flatMap fun k => d.hostBusy p (k % 2 ^ 34 / 64 * 4096) 4096).eraseDups.map fun k => (k, true)
  | none, _ => (unversioned.filter fun k => d.hostHolds k == some .exclusive).map fun k => (k, true)

/-- Ask the host for the lines that a demand access needs back. -/
def ask (l : List (Nat × Bool)) : Act := Act.each l fun x => snoop x.1 x.2

/-! ### LD -/

/-- What a load of bytes gives the lanes that execute: their path goes on (R229). -/
def Ctx.loaded (x : Ctx) (n : Nat) (v : Nat → Nat) : Act :=
  updCaravan x.n x.slot fun c => (c.writeGroup x.w.dst (regsFor n) x.exec v).advance x.path 8

/-- A device load whose lines the folio holds, or which waits for its lines; a line the host holds in E or M is asked
back first (R141). -/
def loadDevice (x : Ctx) (n : Nat) (sext hit : Bool) : Act := .dyn fun d =>
  let p := x.task.part
  let view := d.taskView x.task.id
  let keys := (linesAt x.lanesAt).map fun o => lineKey p (o * 64)
  if hit && keys.all fun k => d.folioHolds view (folioOf x.n) k then
    if x.lanesAt.any fun la => d.poisoned p view la.2 n then x.fault fkPoison
    else x.loaded n fun l => match x.lanesAt.find? fun la => la.1 == l with
      | some la => extend32 n sext (leNat (d.viewBytes p view la.2 n))
      | none => 0
  else newId x.task.id fun id =>
    let w := { x.wait id n false true with
      sext := sext
      want := keys.map fun k => { host := false, line := k } }
    .all [x.switch id, addWait w, ask (d.toAsk p view w)]

/-- A host load: where the folio's cache holds every line the path goes on; else each line not in it is read from the host, and
while the link is down the task faults (R166, R228, R229). -/
def loadHost (x : Ctx) (n : Nat) (sext : Bool) : Act := .dyn fun d =>
  let ls := linesAt x.lanesAt
  let held := fun l => d.hostLine x.task.part (folioOf x.n) l
  let have_ := ls.filterMap held
  let need := ls.filter fun l => (held l).isNone
  let got := have_.flatMap fun h => (List.range 64).map fun i => (h.line * 64 + i, h.data.getD i 0)
  if need = [] then
    if have_.any HostLine.poison then x.fault fkPoison
    else x.loaded n fun l => match x.lanesAt.find? fun la => la.1 == l with
      | some la => extend32 n sext (gotNat got la.2 n)
      | none => 0
  else if !d.axlUp then x.fault fkHostTimeout
  else newId x.task.id fun id =>
    .all [x.switch id,
      addWait { x.wait id n true true with
        sext := sext
        want := need.map fun l => { host := true, line := l }
        poison := have_.any fun h => h.poison
        got := got },
      Act.each need fun l => axlReq { Msg.mk0 opRdShared with part := x.task.part, addr := l * 64 } (.line id) id]

/-- LD (R274). `hit` says that the folio cache holds the lines. -/
def actLd (sel : Sel) (w : BaseW) (hit : Bool) : Act :=
  let space := field w.mod 0 2
  let n := memBytes w
  let sext := bit w.mod 5
  issue sel 4 0x00 w fun x => .dyn fun d =>
    match d.memFault x space n true false with
      | some k => x.fault k
      | none =>
        if x.exec = [] then x.pass
        else match space with
          | 0 => .seq (leafTraffic x n true) (x.loaded n fun l => extend32 n sext (d.leafValue x n (x.addr l)))
          | 1 => loadDevice x n sext hit
          | _ => loadHost x n sext

/-! ### ST -/

/-- The bytes a lane stores: from the register named in the DST field (R275). -/
def Ctx.stored (x : Ctx) (n l : Nat) : List Byte := leBytes n (x.c.readGroup x.now x.w.dst (regsFor n) l)

/-- One lane's store. -/
def storeLane (x : Ctx) (space n id : Nat) (ecc : Ecc) (la : Nat × Nat) : Act := .dyn fun d =>
  let p := x.task.part
  let bs := x.stored n la.1
  match space with
  | 0 => match d.leafAt x.n x.g la.2 n (d.cluster x.n) with
    | some (m, g) => leafWrite m g (laOff la.2) bs
    | none => .skip
  | 1 => withEcc ecc p la.2 id (.all [invalidateFolios (d.taskView x.task.id) (lineKey p la.2) (folioOf x.n),
      lineWrite p (d.taskView x.task.id) la.2 bs false id])
  | _ => hostPiece p la.2 bs false id

/-- ST (R275). `ecc` is what the home finds where the first lane's store merges into its line (R678). -/
def actSt (sel : Sel) (w : BaseW) (ecc : Ecc) : Act :=
  let space := field w.mod 0 2
  let n := memBytes w
  issue sel 4 0x01 w fun x => .dyn fun d =>
    match d.memFault x space n false true with
      | some k => x.fault k
      | none => newId x.task.id fun id =>
        .all [Act.when (space == 0) (leafTraffic x n true),
          Act.each (List.range x.lanesAt.length) fun i =>
            storeLane x space n id (if i = 0 then ecc else .clean) (x.lanesAt.getD i (0, 0)),
          noteAccess x.n x.slot (laneMask x.exec) space id, x.pass]

/-! ### ATOM (R276) -/

/-- The new value of an atomic: 0 ADD, 1 MIN, 2 MAX, 3 AND, 4 OR, 5 XOR, 6 SWAP, 7 CAS. -/
def atomNew (op : Nat) (sgn : Bool) (bits old v cmp : Nat) : Nat :=
  let le := if sgn then decide (signed bits old ≤ signed bits v) else decide (old ≤ v)
  match op with
  | 0 => (old + v) % 2 ^ bits
  | 1 => if le then old else v
  | 2 => if le then v else old
  | 3 => old &&& v
  | 4 => old ||| v
  | 5 => old ^^^ v
  | 6 => v
  | _ => if old = cmp then v else old

/-- A lane's operand and compare value. -/
def Ctx.atomVals (x : Ctx) (n l : Nat) : Nat × Nat :=
  let k := regsFor n
  (x.c.readGroup x.now x.w.c k l,
    match opnd x.w.dst with
    | .gz => 0
    | _ => (List.range k).foldr (fun i v => (x.c.read x.now (x.w.dst + k + i) l).toNat + 2 ^ 32 * v) 0)

/-- The lanes of an atomic as its wait keeps them: lane, operand, compare value. -/
def Ctx.atomList (x : Ctx) (n : Nat) : List (Nat × Nat × Nat) := x.exec.map fun l => (l, x.atomVals n l)

def Dev.atomVal (vals : List (Nat × Nat × Nat)) (l : Nat) : Nat × Nat :=
  match vals.find? fun v => v.1 == l with
  | some v => v.2
  | none => (0, 0)

/-- Leaf atomics in ascending lane order; the old values collect in the second component. -/
def atomLeaf (x : Ctx) (op n : Nat) (sgn ret : Bool) : List (Nat × Nat) → List (Nat × Nat) → Act
  | [], old =>
    updCaravan x.n x.slot fun c =>
      let f := fun l => match old.find? fun o => o.1 == l with
        | some o => o.2
        | none => 0
      (if ret then c.writeGroup x.w.dst (regsFor n) x.exec f else c).advance x.path 8
  | la :: t, old => .dyn fun d =>
    match d.leafAt x.n x.g la.2 n (d.cluster x.n) with
    | none => .skip
    | some (m, g) =>
      let v := (d.quire m).leafNat g (laOff la.2) n
      let a := x.atomVals n la.1
      .all [leafWrite m g (laOff la.2) (leBytes n (atomNew op sgn (8 * n) v a.1 a.2)),
        atomLeaf x op n sgn ret t (old ++ [(la.1, v)])]

/-- ARG of an ATOMIC message (R133). -/
def atomArg (op : Nat) : Nat := match op with | 0 => 1 | 6 => 2 | _ => 3

/-- An atomic. One to the leaf is performed at once; one to a memory home waits for MEM_DATA_ARRIVAL, with its path
where it returns a value (R229); one to the host goes out as one ATOMIC message for each lane. -/
def actAtom (op : Nat) (sel : Sel) (w : BaseW) : Act :=
  let space := field w.mod 0 2
  let n := atomBytes w
  let ret := bit w.mod 3
  let sgn := bit w.mod 4
  issue sel 5 op w fun x => .dyn fun d =>
    match d.memFault x space n false true with
      | some k => x.fault k
      | none =>
        if x.exec = [] then x.pass
        else if space = 0 then .all [leafTraffic x n false, atomLeaf x op n sgn ret x.lanesAt []]
        else if space = 2 && !d.axlUp then x.fault fkHostTimeout
        else newId x.task.id fun id =>
          let keys := (linesAt x.lanesAt).map fun o => lineKey x.task.part (o * 64)
          let wt := { x.wait id n (space == 2) ret with
            atom := some (op, sgn)
            vals := x.atomList n
            want := if space = 2 then x.lanesAt.map fun la => { host := true, line := la.1 }
              else keys.map fun k => { host := false, line := k } }
          .all [addWait wt, if ret then x.switch id else x.pass,
            if space = 1 then ask (d.toAsk x.task.part (d.taskView x.task.id) wt)
            else Act.each x.lanesAt fun la =>
              let v := Dev.atomVal wt.vals la.1
              .all [dropHostLine (la.2 / 64), axlReq { Msg.mk0 opAtomic with
                part := x.task.part, addr := la.2, arg := atomArg op, data := leBytes 8 v.1 ++ leBytes 8 v.2 }
                (.atomic id la.1) id],
            noteAccess x.n x.slot (laneMask x.exec) space id]

/-! ### Commands -/

def execLd (sel : Sel) (w : BaseW) (hit : Bool) (s : State) : Host.Outcome State Fault Refusal :=
  cmd (actLd sel w hit) s

def execSt (sel : Sel) (w : BaseW) (ecc : Ecc) (s : State) : Host.Outcome State Fault Refusal :=
  cmd (actSt sel w ecc) s

def execAtomAdd (sel : Sel) (w : BaseW) (s : State) : Host.Outcome State Fault Refusal := cmd (actAtom 0 sel w) s
def execAtomMin (sel : Sel) (w : BaseW) (s : State) : Host.Outcome State Fault Refusal := cmd (actAtom 1 sel w) s
def execAtomMax (sel : Sel) (w : BaseW) (s : State) : Host.Outcome State Fault Refusal := cmd (actAtom 2 sel w) s
def execAtomAnd (sel : Sel) (w : BaseW) (s : State) : Host.Outcome State Fault Refusal := cmd (actAtom 3 sel w) s
def execAtomOr (sel : Sel) (w : BaseW) (s : State) : Host.Outcome State Fault Refusal := cmd (actAtom 4 sel w) s
def execAtomXor (sel : Sel) (w : BaseW) (s : State) : Host.Outcome State Fault Refusal := cmd (actAtom 5 sel w) s
def execAtomSwap (sel : Sel) (w : BaseW) (s : State) : Host.Outcome State Fault Refusal := cmd (actAtom 6 sel w) s
def execAtomCas (sel : Sel) (w : BaseW) (s : State) : Host.Outcome State Fault Refusal := cmd (actAtom 7 sel w) s

end Sys2Proof.Machine
end

