-- ==== Sys2Proof/Machine/Access.lean ====
section
/-! DEFINITION. The access engine (09): asynchronous copies and stream contexts. -/

namespace Sys2Proof.Machine

/-- Read the descriptor, or fault: MISALIGNED before LEAF_RANGE (R282, R287). -/
def withDesc (x : LCtx) (bytes : Nat) (k : Nat → Act) : Act := .dyn fun d =>
  if x.va.toNat % 16 != 0 then x.fault fkMisaligned
  else match x.descriptor d bytes with
    | some v => k v
    | none => x.fault fkLeafRange

/-! ### ACOPY (R305 to R310) -/

/-- One end of a copy. -/
inductive End where
  | leaf (quire : Nat) (g : Gathering) (o : Nat)
  | mem (o : Nat)
  | host (a : Nat)
  deriving DecidableEq, Repr

/-- The quire whose counter a copy updates: that of a leaf destination, else the issuing one (R307). -/
def End.quire (e : End) (n : Nat) : Nat :=
  match e with
  | .leaf m _ _ => m
  | _ => n

/-- An end of a copy, or the fault it raises (R306). -/
def Dev.copyEnd (d : Dev) (x : LCtx) (space a n : Nat) (write : Bool) : End ⊕ Nat :=
  match space with
  | 0 => match d.leafAt x.n x.g a n true with
    | some (m, g) => .inl (.leaf m g (laOff a))
    | none => .inr fkLeafRange
  | 1 => if d.inMemory x.task.part a n then .inl (.mem a) else .inr fkMemRange
  | _ => if d.hostPermit x.task.part a n write then .inl (.host a) else .inr fkHostWindow

/-- Read a range of host memory line by line into a leaf. -/
def hostToLeaf (p a n m : Nat) (g : Gathering) (o id : Nat) : Act := .dyn fun d =>
  if !d.axlUp then endTask id stFault fkHostTimeout
  else Act.each (linesOf a n) fun l =>
    let lo := max l a
    let hi := min (l + 64) (a + n)
    axlReq { Msg.mk0 opRdUc with part := p, addr := lo, len := hi - lo }
      (.leafRead m g.task g.num (o + (lo - a)) (hi - lo)) id

/-- Cross-leaf requests of a transfer, one for each 64-byte row. -/
def crossRows (n m o len : Nat) : Act :=
  Act.when (n != m) (Act.add (THR_LEAF_COUNT_CROSS_IN m) (linesOf o len).length)

/-- Move the bytes of a copy: read at its issue, written as their destination accepts them (R308). -/
def moveCopy (x : LCtx) (src dst : End) (n id : Nat) : Act := .dyn fun d =>
  let p := x.task.part
  let view := d.taskView id
  let put := fun bs => match dst with
    | .leaf m g o => .all [crossRows x.n m o n, leafWrite m g o bs]
    | .mem o => memWrite p view o bs false id
    | .host a => hostWrite p a bs false id
  match src with
  | .leaf m g o => .all [crossRows x.n m o n, put ((d.quire m).leafBytes g o n)]
  | .mem o => .all [countRead p o n, put (d.viewBytes p view o n)]
  | .host a => match dst with
    | .leaf m g o => hostToLeaf p a n m g o id
    | _ => .skip

/-- Snoop the lines that the ACOPY standing at a program counter reads and the host holds in E or M (R141). -/
def acopySnoop (sel : Sel) (w : LongW) : Act := .dyn fun d =>
  match d.running sel.quire sel.slot with
  | none => .skip
  | some (c, g, t) =>
    if c.path sel.pc = [] || d.fetch t sel.pc != .long 10 0x00 w then .skip
    else afterSnoop (d.acopyReads { n := sel.quire, slot := sel.slot, pc := sel.pc, now := d.now, task := t, g := g, c := c,
                                    mask := w.cmask.toNat, w := w }) .skip

/-- ACOPY. -/
def actAcopy (sel : Sel) (w : LongW) : Act := .seq (acopySnoop sel w) <|
  issueLong sel 10 0x00 w fun x =>
    withDesc x 16 fun v => .dyn fun d =>
      let src := field v 0 48
      let ss := field v 48 2
      let ds := field v 50 2
      let dst := field v 64 48
      let n := field v 112 16 * 16
      let p := x.task.part
      if src % 16 != 0 || dst % 16 != 0 then x.fault fkMisaligned
      else if ss == 3 || ds == 3 || n == 0 || (ss != 0 && ds != 0) then x.fault fkLeafRange
      else match d.copyEnd x ss src n false, d.copyEnd x ds dst n true with
        | .inr k, _ => x.fault k
        | _, .inr k => x.fault k
        | .inl s, .inl e =>
          if ds == 2 && (d.taskView x.task.id).isSome then x.fault fkProofHostWrite
          else if ss == 1 && d.poisoned p (d.taskView x.task.id) src n then
            .all [countRead p src n, x.fault fkPoison]
          else newId x.task.id fun id =>
            .all [updQuire x.n fun q => { q with
                copies := q.copies ++ [⟨id, x.task.id, x.g.num, x.slot, e.quire x.n, field w.ext 0 5⟩] },
              moveCopy x s e n id]

/-- ACOPY_DONE: every destination byte is written; the copy's counter takes its update (R307). -/
def actAcopyDone (n id : Nat) : Act := .dyn fun d =>
  match (d.quire n).copies.find? fun c => c.id == id with
  | none => .skip
  | some c =>
    if d.busy id then .skip
    else .all [updQuire n fun q => { q with copies := q.copies.filter fun c => c.id != id },
      updQuire c.home fun q => q.arrive c.counter 1, Act.add (THR_ACC_COUNT_COPIES n) 1]

/-! ### Streams (R311 to R322) -/

/-- The memory bytes of a row begin here. -/
def Stream.rowAt (s : Stream) (r : Nat) : Nat := s.mem + r * s.stride * 64

/-- The leaf offset of a row's slot. -/
def Stream.slotAt (s : Stream) (r : Nat) : Nat := s.leaf + r % 2 ^ s.logSlots * (s.units * 64)

/-- The fault of a row's access as it is made, if it is refused (R166, R317 to R319). -/
def Dev.accessRefused (d : Dev) (s : Stream) (r : Nat) : Option Nat :=
  match d.task s.task with
  | none => none
  | some t =>
    let a := s.rowAt r
    let n := s.units * 64
    if s.host then
      (if !d.hostPermit t.part a n s.write then some fkHostWindow
       else if s.write && (d.taskView s.task).isSome then some fkProofHostWrite
       else if !s.write && !d.axlUp then some fkHostTimeout else none)
    else if !d.inMemory t.part a n then some fkMemRange
    else if !s.write && d.poisoned t.part (d.taskView s.task) a n then some fkPoison
    else none

/-- The fault of a row as it comes back: a row of the host has failed where its access was refused or its data are poisoned; a
row of device memory is read as it comes back. -/
def Dev.rowRefused (d : Dev) (s : Stream) (r : Nat) : Option Nat :=
  if s.host then (if s.bad.contains r then some fkPoison else none) else d.accessRefused s r

/-- A row is complete: the counter moves past every leading complete row (R313). -/
def Quire.rowDone (q : Quire) (c r : Nat) : Quire :=
  let s := q.stream c
  let ahead := r :: s.ahead
  let v := (List.range (ahead.length + 1)).foldl (fun v _ => if ahead.contains v then v + 1 else v) (q.counter (16 + c))
  { q with streams := Store.put noStream c { s with ahead := ahead.filter fun x => decide (v ≤ x) } q.streams }.setCounter
    (16 + c) v

/-- ASTART: an idle context takes the descriptor (R312). -/
def actAstart (sel : Sel) (w : LongW) : Act :=
  let c := field w.ext 5 4
  issueLong sel 10 0x01 w fun x =>
    withDesc x 16 fun v =>
      let units := field v 52 12
      let rows := field v 64 16
      let leaf := field v 104 19
      let lg := field v 123 3
      let mem := field v 0 48
      if mem % 64 != 0 || leaf % 64 != 0 then x.fault fkMisaligned
      else if units == 0 || rows == 0 || decide (x.g.size < leaf + 2 ^ lg * (units * 64)) then x.fault fkLeafRange
      else updQuire x.n fun q =>
        { q with streams := Store.put noStream c { noStream c with
            state := 1, task := x.task.id, gath := x.g.num, slot := x.slot, mem := mem, host := bit v 48,
            write := bit v 49, units := units, rows := rows, stride := field v 80 24, leaf := leaf,
            logSlots := lg } q.streams }.setCounter (16 + c) 0

/-- A stream stops: nothing more is fetched or written (R320). -/
def Stream.stop (s : Stream) : Stream := if s.state = 1 then { s with state := 2 } else s

/-- Rows of a write stream that are filled and not yet sent. -/
def Stream.filled (s : Stream) : Bool := decide (s.next < min s.rows s.released)

/-- The gathering of a stream has ended (R322). -/
def Stream.finish (s : Stream) : Stream :=
  if s.write && s.filled && s.state == 1 then { s with closing := true } else s.stop

/-- ASTOP. -/
def actAstop (sel : Sel) (w : LongW) : Act :=
  issueLong sel 10 0x02 w fun x =>
    if x.va.toNat % 16 != 0 then x.fault fkMisaligned
    else updStream x.n (field w.ext 5 4) Stream.stop

/-- Send the host reads of a row; a row whose access is refused has failed (R166, R169, R317). -/
def rowReads (n c r id : Nat) (s : Stream) : Act := .dyn fun d =>
  match d.task s.task with
  | none => .skip
  | some t =>
    if !s.host then .skip
    else match d.accessRefused s r with
      | some k => .seq (Act.when (k == fkHostWindow) windowRefusal) (updStream n c fun s => { s with bad := r :: s.bad })
      | none => Act.each (List.range s.units) fun i =>
        axlReq { Msg.mk0 opRdUc with part := t.part, addr := s.rowAt r + 64 * i, len := 64 }
          (.rowRead n c r (s.slotAt r + 64 * i)) id

/-- A row is on its way. -/
def launchRow (n c r : Nat) (s : Stream) (f : Stream → Stream) : Act :=
  newId s.task fun id =>
    .all [updStream n c fun s => f { s with flight := s.flight ++ [(r, id)] }, rowReads n c r id s]

/-- STREAM_ROW_FETCH (R315). -/
def actStreamRowFetch (n c : Nat) : Act := .dyn fun d =>
  let q := d.quire n
  let s := q.stream c
  let r := s.next
  if s.state == 1 && !s.write && decide (r < s.rows) &&
      decide (r < 2 ^ s.logSlots + min s.released (q.counter (16 + c))) then
    launchRow n c r s fun s => { s with next := r + 1 }
  else .skip

/-- Refetch, as demand accesses, the dropped rows below a target that a program waits for; a refused one ends the task
(R318). -/
def refetch (n c target : Nat) : Act := .dyn fun d =>
  let s := (d.quire n).stream c
  if s.state != 1 || s.write then .skip
  else Act.each (s.dropped.filter fun r => decide (r < target)) fun r => .dyn fun d =>
    .all [Act.add (THR_ACC_DROP_REFETCH n) 1,
      match d.accessRefused s r with
      | some k => endTask s.task stFault k
      | none => launchRow n c r s fun s => { s with
          dropped := s.dropped.filter (· != r), demand := r :: s.demand, bad := s.bad.filter (· != r) }]

/-- The highest target that a thread of the quire waits for on a counter. -/
def Quire.awaited (q : Quire) (k : Nat) : Nat :=
  (q.caravans.flatMap fun c => lanes.map fun l => match c.thread l with
    | .waitArrive k' t => if k' == k then t else 0
    | _ => 0).foldl max 0

/-- A row has left the flight. -/
def landed (n c r : Nat) (f : Stream → Stream) : Act := updStream n c fun s =>
  f { s with flight := s.flight.filter (fun x => x.1 != r), demand := s.demand.filter (· != r),
             bad := s.bad.filter (· != r) }

/-- STREAM_ROW_LAND: the row lands in its slot and is complete; after ASTOP it is discarded; a refused row that the
program waits for ends the task (R313, R318, R320). -/
def actStreamRowLand (n c r : Nat) (ecc : Ecc) : Act := .dyn fun d =>
  let q := d.quire n
  let s := q.stream c
  match s.flight.find? fun x => x.1 == r, d.task s.task with
  | some f, some t =>
    if s.write || d.busy f.2 then .skip
    else if s.state == 2 then landed n c r id
    else match d.rowRefused s r with
      | some k => Act.when (s.demand.contains r) (endTask s.task stFault k)
      | none =>
        let view := d.taskView s.task
        let p := t.part
        let done : Act := .all [
          match q.gathering s.task s.gath with
          | some g => Act.when (!s.host) (.dyn fun d => .all [countRead p (s.rowAt r) (s.units * 64),
              leafWrite n g (s.slotAt r) (d.viewBytes p view (s.rowAt r) (s.units * 64))])
          | none => .skip,
          landed n c r id, updQuire n fun q => q.rowDone c r, Act.add (THR_ACC_COUNT_ROWS n) 1]
        if s.host then done
        else afterSnoop [(p, s.rowAt r, s.units * 64)] <| match ecc with
          | .uncorrectable => ueDune p (s.rowAt r) (if s.demand.contains r then f.2 else 0)
          | e => withEcc e p (s.rowAt r) 0 done
  | _, _ => .skip

/-- PREFETCH_DROP (R317); a thread that waits for the row already makes it a demand access at once (R318). -/
def actPrefetchDrop (n c r : Nat) : Act := .dyn fun d =>
  let s := (d.quire n).stream c
  match s.flight.find? fun x => x.1 == r with
  | some f =>
    if s.write || d.busy f.2 || s.demand.contains r || (d.rowRefused s r).isNone then .skip
    else if s.state == 2 then landed n c r id
    else .all [landed n c r fun s => { s with dropped := s.dropped ++ [r] }, Act.add (THR_ACC_DROP_PREFETCH n) 1,
      .dyn fun d => refetch n c ((d.quire n).awaited (16 + c))]
  | none => .skip

/-- STREAM_ROW_WRITE (R315, R319, R322, R369). -/
def actStreamRowWrite (n c : Nat) : Act := .dyn fun d =>
  let q := d.quire n
  let s := q.stream c
  let r := s.next
  match q.gathering s.task s.gath, d.task s.task with
  | some g, some t =>
    if s.state != 1 || !s.write || !s.filled ||
      d.storeHolds n s.slot 0xFFFFFFFF [spanAt (n, g) (s.slotAt r) (s.units * 64)] then .skip
    else match d.accessRefused s r with
      | some k => endTask s.task stFault k
      | none => newId s.task fun id =>
        let bs := q.leafBytes g (s.slotAt r) (s.units * 64)
        .all [updStream n c fun s =>
            let s := { s with next := r + 1, flight := s.flight ++ [(r, id)] }
            if s.closing && !s.filled then s.stop else s,
          if s.host then hostWrite t.part (s.rowAt r) bs false id
          else memWrite t.part (d.taskView s.task) (s.rowAt r) bs false id]
  | _, _ => .skip

/-- STREAM_ROW_ACCEPTED (R313). -/
def actStreamRowAccepted (n c r : Nat) : Act := .dyn fun d =>
  let s := (d.quire n).stream c
  match s.flight.find? fun x => x.1 == r with
  | some f =>
    if !s.write || d.busy f.2 then .skip
    else .all [landed n c r id, updQuire n fun q => q.rowDone c r, Act.add (THR_ACC_COUNT_ROWS n) 1]
  | none => .skip

/-- STREAM_DRAINED (R320): the context is idle and its counter unbound with its last value. -/
def actStreamDrained (n c : Nat) : Act := .dyn fun d =>
  let s := (d.quire n).stream c
  Act.when (s.state == 2 && s.flight == []) (updStream n c fun _ => noStream c)

/-! ### Commands -/

def execAcopy (sel : Sel) (w : LongW) (s : State) : Host.Outcome State Fault Refusal := cmd (actAcopy sel w) s
def execAcopyDone (n id : Nat) (s : State) : Host.Outcome State Fault Refusal := cmd (actAcopyDone n id) s
def execAstart (sel : Sel) (w : LongW) (s : State) : Host.Outcome State Fault Refusal := cmd (actAstart sel w) s
def execAstop (sel : Sel) (w : LongW) (s : State) : Host.Outcome State Fault Refusal := cmd (actAstop sel w) s
def execStreamRowFetch (n c : Nat) (s : State) : Host.Outcome State Fault Refusal := cmd (actStreamRowFetch n c) s
def execStreamRowLand (n c r : Nat) (ecc : Ecc) (s : State) : Host.Outcome State Fault Refusal :=
  cmd (actStreamRowLand n c r ecc) s
def execPrefetchDrop (n c r : Nat) (s : State) : Host.Outcome State Fault Refusal := cmd (actPrefetchDrop n c r) s
def execStreamRowWrite (n c : Nat) (s : State) : Host.Outcome State Fault Refusal := cmd (actStreamRowWrite n c) s
def execStreamRowAccepted (n c r : Nat) (s : State) : Host.Outcome State Fault Refusal :=
  cmd (actStreamRowAccepted n c r) s
def execStreamDrained (n c : Nat) (s : State) : Host.Outcome State Fault Refusal := cmd (actStreamDrained n c) s

end Sys2Proof.Machine
end

