-- ==== Sys2Proof/Machine/Sync.lean ====
section
/-! DEFINITION. The CTRL and SYNC classes (R273, R277 to R279, R302), barriers and collectives that complete (R233 to
R241), and the placing and draining of gatherings (R211 to R217, R675). -/

namespace Sys2Proof.Machine

/-! ### Barriers (R233 to R239) -/

/-- Lane l has arrived at BAR.C with a mask: it waits there with that mask, or has exited. -/
def Caravan.atBarC (c : Caravan) (m l : Nat) : Bool := c.thread l == .waitBarC m || c.exited l

/-- Complete the BAR.C instance of a mask, if every thread of the mask has arrived; later accesses of its threads see the
MSTOREs and VSTs before it (R233, R324). -/
def checkBarC (n slot m : Nat) : Act := .dyn fun d =>
  match d.caravan n slot with
  | some c =>
    let ls := lanes.filter fun l => c.thread l == .waitBarC m
    if ls != [] && (maskLanes m).all (c.atBarC m) then
      .all [updCaravan n slot fun c => (c.setThreads ls .active).advance ls 8,
        updQuire n fun q => q.orderBar [(slot, m)] [(slot, laneMask ls)],
        dropStalls n fun s => s.kind == 1 && s.slot == slot && s.mask == m]
    else .skip
  | none => .skip

/-- Barrier b of a gathering has its instance in this stall entry. -/
def Stall.isBarG (s : Stall) (task gath b : Nat) : Bool :=
  s.kind == 2 && s.task == task && s.gath == gath && s.bar == b

/-- The caravans of a gathering. -/
def Quire.members (q : Quire) (task num : Nat) : List Caravan :=
  q.caravans.filter fun c => c.task == task && c.gath == num

/-- A caravan has arrived at BAR.G b: each of its threads waits there or has exited. -/
def Caravan.atBarG (c : Caravan) (b : Nat) : Bool := lanes.all fun l => c.thread l == .waitBarG b || c.exited l

/-- Complete the BAR.G instance of a gathering, if every caravan of its mask has arrived; later accesses of its threads see the
MSTOREs and VSTs before it (R234, R324). -/
def checkBarG (n task num b : Nat) : Act := .dyn fun d =>
  let q := d.quire n
  match q.stalls.find? fun s => s.isBarG task num b with
  | some st =>
    let mates := (q.members task num).filter fun c => bit st.mask c.index
    let waiting := fun c : Caravan => lanes.filter fun l => c.thread l == .waitBarG b
    if mates.all fun c => c.atBarG b then
      .all [updQuire n fun q => q.orderBar (mates.map fun c => (c.slot, 0xFFFFFFFF))
          ((q.members task num).map fun c => (c.slot, laneMask (waiting c))),
        updQuire n fun q => { q with caravans := q.caravans.map fun c =>
          if c.task == task && c.gath == num then
            (c.setThreads (waiting c) .active).advance (waiting c) 8
          else c },
        dropStalls n fun s => s.isBarG task num b]
    else .skip
  | none => .skip

/-- After an exit: an exit counts as an arrival at every barrier instance of the caravan and its gathering (R239). A collective
whose mask it completes issues when its command is given (R241). -/
def recheck (n : Nat) (c : Caravan) : Act := .dyn fun d =>
  .all [
    Act.each (d.quire n).stalls fun s =>
      if s.kind == 1 && s.slot == c.slot then checkBarC n c.slot s.mask
      else if s.isBarG c.task c.gath s.bar then checkBarG n c.task c.gath s.bar
      else .skip]

/-! ### CTRL (R253, R273) -/

/-- The condition of a branch: 0 always, 1 = 0, 2 not 0, 3 below 0, 4 at least 0. -/
def branchHolds (cond : Nat) (v : Word) : Bool :=
  match cond with
  | 0 => true
  | 1 => v == 0
  | 2 => v != 0
  | 3 => v.msb
  | _ => !v.msb

/-- BRA: the threads whose condition holds go to the branch's own address plus the offset in words. -/
def actBra (sel : Sel) (w : BaseW) : Act :=
  issue sel 3 0x00 w fun x =>
    let taken := x.exec.filter fun l => branchHolds (w.mod % 8) (x.va l)
    let target := (((x.pc : Int) + 8 * signed 18 w.imm) % 2 ^ 32).toNat
    updCaravan x.n x.slot fun c =>
      (c.jump taken target).advance (x.path.filter fun l => !taken.contains l) 8

/-- BRA.R: to program counter A[26:0] * 8, the condition on B. -/
def actBraR (sel : Sel) (w : BaseW) : Act :=
  issue sel 3 0x01 w fun x =>
    let taken := x.exec.filter fun l => branchHolds (w.mod % 8) (x.vb l)
    updCaravan x.n x.slot fun c =>
      (taken.foldl (fun c l => c.jump [l] ((x.va l).toNat % 2 ^ 27 * 8)) c).advance
        (x.path.filter fun l => !taken.contains l) 8

/-- EXIT: the threads enter EXITED; with the last caravan of a gathering its streams end (R273, R322). -/
def actExit (sel : Sel) (w : BaseW) : Act :=
  issue sel 3 0x02 w fun x =>
    .all [updCaravan x.n x.slot fun c =>
        (c.setThreads x.exec .exited).advance (x.path.filter fun l => !x.exec.contains l) 8,
      recheck x.n x.c,
      .dyn fun d =>
        if ((d.quire x.n).members x.g.task x.g.num).all fun c => c.live == [] then
          updQuire x.n fun q => { q with streams := q.streams.map fun kv =>
            if kv.2.task == x.g.task && kv.2.gath == x.g.num then (kv.1, kv.2.finish) else kv }
        else .skip]

/-- NOP. -/
def actNop (sel : Sel) (w : BaseW) : Act := issue sel 3 0x03 w fun x => x.pass

/-! ### SYNC -/

/-- BAR.C: each executing thread in the mask it names waits, any other passes (R233, R236). -/
def actBarC (sel : Sel) (w : BaseW) : Act :=
  let all1 := bit w.mod 0
  issue sel 6 0x00 w fun x =>
    let m := fun l => if all1 then 0xFFFFFFFF else (x.va l).toNat
    let stay := x.exec.filter fun l => bit (m l) l
    .all [
      updCaravan x.n x.slot fun c =>
        (stay.foldl (fun c l => c.setThreads [l] (.waitBarC (m l))) c).advance
          (x.path.filter fun l => !stay.contains l) 8,
      Act.when (stay != []) (countWait x.n),
      Act.each (stay.map m).eraseDups fun k =>
        .seq (startStall x.n ⟨1, x.slot, x.task.id, x.g.num, 0, x.pc, k, x.now, none⟩
            fun s => s.kind == 1 && s.slot == x.slot && s.mask == k)
          (checkBarC x.n x.slot k)]

/-- One thread arrives at BAR.G: the first arrival fixes the mask, another mask is BAR_MISMATCH, after which nothing of the task
arrives (R234, R235, R239). -/
def arriveBarG (x : Ctx) (b l : Nat) : Act := .dyn fun d =>
  let m := (x.va l).toNat % 65536
  if (d.task x.task.id).any Task.ended then .skip
  else if !bit m x.c.index then updCaravan x.n x.slot fun c => c.advance [l] 8
  else
    let join := updCaravan x.n x.slot fun c => c.setThreads [l] (.waitBarG b)
    match (d.quire x.n).stalls.find? fun s => s.isBarG x.task.id x.g.num b with
    | some st => if st.mask = m then join else x.fault fkBarMismatch
    | none => .all [join, updQuire x.n fun q => { q with stalls := q.stalls ++
        [{ kind := 2, slot := x.slot, task := x.task.id, gath := x.g.num, bar := b, pc := x.pc, mask := m,
           since := x.now, fired := none }] }]

/-- BAR.G. -/
def actBarG (sel : Sel) (w : BaseW) : Act :=
  issue sel 6 0x01 w fun x =>
    .all [updCaravan x.n x.slot fun c => c.advance (x.path.filter fun l => !x.exec.contains l) 8,
      Act.each x.exec (arriveBarG x (w.mod % 16)),
      Act.when (x.exec.any fun l => bit ((x.va l).toNat % 65536) x.c.index) (countWait x.n),
      checkBarG x.n x.task.id x.g.num (w.mod % 16)]

/-- The addend or target of ARRIVE and AWAIT: A, or the immediate in its place (R277). -/
def Ctx.arg (x : Ctx) (l : Nat) : Word := if x.w.immEn then immOf x.w else x.va l

/-- ARRIVE: once for each executing thread, after the leaf accesses that the caravan has issued (R279, R302, R304). -/
def actArrive (sel : Sel) (w : BaseW) : Act :=
  issue sel 6 0x02 w fun x =>
    .all [updQuire x.n fun q =>
        let waits := q.leafWork x.slot 0xFFFFFFFF
        Quire.settle { q with late := q.late ++ x.exec.map fun l =>
            ⟨w.mod % 32, (x.arg l).toNat, waits⟩ },
      x.pass]

/-- AWAIT: a satisfied thread passes, another waits; dropped rows it waits for are fetched again (R302, R318). -/
def actAwait (sel : Sel) (w : BaseW) : Act :=
  issue sel 6 0x03 w fun x => .dyn fun d =>
    let k := w.mod % 32
    let v := (d.quire x.n).counter k
    let stay := x.exec.filter fun l => !tallySat v (x.arg l).toNat
    .all [updCaravan x.n x.slot fun c =>
        (stay.foldl (fun c l => c.setThreads [l] (.waitArrive k (x.arg l).toNat)) c).advance
          (x.path.filter fun l => !stay.contains l) 8,
      Act.when (stay != []) (countWait x.n),
      Act.when (decide (16 ≤ k)) (Act.each stay fun l => refetch x.n (k - 16) (x.arg l).toNat)]

/-- TALLY.ADD: once for each executing thread (R279). -/
def actTallyAdd (sel : Sel) (w : BaseW) : Act :=
  issue sel 6 0x04 w fun x => .dyn fun d =>
    let t := fun l => d.relTally x.task.part (x.va l).toNat
    if x.exec.any fun l => (t l).isNone then x.fault fkTallyRange
    else .all [x.pass, Act.each x.exec fun l => match t l with
      | some k => tallyAdd k (x.vb l).toNat
      | none => .skip]

/-- TALLY.WAIT: DST is 1 when the wait is satisfied and 0 when the tally is FAULTED (R279). -/
def actTallyWait (sel : Sel) (w : BaseW) : Act :=
  issue sel 6 0x05 w fun x => .dyn fun d =>
    let t := fun l => d.relTally x.task.part (x.va l).toNat
    if x.exec.any fun l => (t l).isNone then x.fault fkTallyRange
    else
      let bad := fun l => d.flag (TLY_VALUE_FAULTED ((t l).getD 0))
      let ok := fun l => tallySat (d.fld (TLY_VALUE_VALUE ((t l).getD 0))) (x.vb l).toNat
      let stay := x.exec.filter fun l => !bad l && !ok l
      .all [updCaravan x.n x.slot fun c =>
          let c := (c.setPred w.dst (x.exec.filter bad) false).setPred w.dst (x.exec.filter fun l => !bad l && ok l) true
          (stay.foldl (fun c l => c.setThreads [l] (.waitTally ((t l).getD 0) (x.vb l).toNat w.dst)) c).advance
            (x.path.filter fun l => !stay.contains l) 8,
        Act.when (stay != []) (countWait x.n)]

/-- FENCE: a thread's later memory accesses wait for its earlier ones in the scope (R278, R304). -/
def actFence (sel : Sel) (w : BaseW) : Act :=
  let scope := w.mod % 4
  issue sel 6 0x06 w fun x => .dyn fun d =>
    let q := d.quire x.n
    let ids := fun l =>
      ((q.accs.filter fun a => a.slot == x.slot && a.space == scope && bit a.lanes l && d.accessOpen x.n a.id).map
        Access.id) ++ (if scope = 0 then q.leafWork x.slot (2 ^ l) else [])
    .all [updQuire x.n fun q => { q with fences := q.fences ++ (x.exec.filter fun l => ids l != []).map fun l =>
        { slot := x.slot, lanes := 2 ^ l, ids := ids l } }, x.pass]

/-! ### Placement (R211 to R214, R675) -/

/-- Register bytes per lane that a caravan of a kernel takes (R213). -/
def caravanBytes (regs : Nat) : Nat := 4 * (ceilDiv regs 8 * 8)

/-- A slot is free that no resident gathering holds (R215). -/
def Quire.freeSlots (q : Quire) : List Nat := upTo 64 fun s =>
  (q.caravan s).isNone && !(q.gaths.any fun g => g.slots.contains s)

def Quire.freePages (q : Quire) : List Nat := upTo 128 fun p => !(q.gaths.any fun g => g.pages.contains p)

def Quire.freeRegBytes (q : Quire) : Nat := 16384 - listSum (q.gaths.map Gathering.regBytes)

/-- A quire has room for a gathering of a task (R214). -/
def Quire.hasRoom (q : Quire) (t : Task) : Bool :=
  decide (dCaravans t.desc ≤ q.freeSlots.length) &&
  decide (dCaravans t.desc * caravanBytes t.regs ≤ q.freeRegBytes) && decide (t.leafPages ≤ q.freePages.length)

/-- A caravan at its start (R211). -/
def newCaravan (d : Dev) (t : Task) (slot index : Nat) : Caravan :=
  { slot := slot, task := t.id, gath := t.next, index := index, prio := d.fld (QUE_CFG_PRIORITY t.queue),
    stopping := false, pcs := [], thr := [], passed := [], age := 0, waits := [],
    g := setLanes zeroWord 0 lanes (fun l => BitVec.ofNat 32 (index * 32 + l)) [],
    u := ((List.range 3).foldl (fun s i =>
        Store.put zeroWord (2 * i) (BitVec.ofNat 32 (dArg t.desc (2 + i)))
          (Store.put zeroWord (2 * i + 1) (BitVec.ofNat 32 (dArg t.desc (2 + i) / 2 ^ 32)) s))
      (Store.put zeroWord 6 (BitVec.ofNat 32 t.next)
        (Store.put zeroWord 7 (BitVec.ofNat 32 (index + dCaravans t.desc * 16)) []))),
    p := [] }

/-- Insert caravans in slot order. -/
def insertCaravan (l : List Caravan) (c : Caravan) : List Caravan :=
  (l.filter fun x => decide (x.slot < c.slot)) ++ c :: l.filter fun x => decide (c.slot < x.slot)

/-- The task whose gathering is to be placed next for a role. -/
def Dev.frontTask (d : Dev) (p role : Nat) : Option Task :=
  d.eng.tasks.find? fun t => t.part == p && dKind t.desc == kdKernel && dRole t.desc == role && !t.ended &&
    decide (t.next < dGatherings t.desc)

/-- GATHERING_PLACE: the front gathering of a role goes to the first quire with room. -/
def actGatheringPlace (p role : Nat) : Act := .dyn fun d =>
  match d.frontTask p role with
  | none => .skip
  | some t =>
    match (d.activeQuires p role).find? fun n => (d.quire n).hasRoom t with
    | none => .skip
    | some n =>
      let q := d.quire n
      let slots := q.freeSlots.take (dCaravans t.desc)
      .all [updTask t.id fun t => { t with next := t.next + 1 },
        updQuire n fun q => { q with
          caravans := (List.range slots.length).foldl (fun l i =>
            insertCaravan l (newCaravan d t (slots.getD i 0) i)) q.caravans
          gaths := q.gaths ++ [{ task := t.id, num := t.next, slots := slots, pages := q.freePages.take t.leafPages,
                                 regBytes := dCaravans t.desc * caravanBytes t.regs }] }]

/-- Nothing of a caravan is outstanding: its accesses, copies, gathers and queued instructions. -/
def Dev.slotQuiet (d : Dev) (n : Nat) (c : Caravan) : Bool :=
  let q := d.quire n
  !(q.accs.any fun a => a.slot == c.slot && d.busy a.id) &&
  !(d.eng.memWaits.any fun w => w.quire == n && w.slot == c.slot) &&
  !(q.copies.any fun x => x.slot == c.slot && x.task == c.task) &&
  !(q.gathers.any fun x => x.slot == c.slot && x.task == c.task) &&
  !(q.mtx.queue.any fun o => o.slot == c.slot && o.task == c.task) &&
  !((q.vec.queue ++ q.vec.run.map VRun.op).any fun o => o.slot == c.slot && o.task == c.task)

/-- SLOT_DRAINED: a DRAINING slot whose writes are accepted, or a STOPPING one, becomes EMPTY; with the last slot the
gathering's resources return, and with the last gathering the counters are 0 (R215, R217, R300, R322). -/
def actSlotDrained (n slot : Nat) : Act := .dyn fun d =>
  let q := d.quire n
  match q.caravan slot with
  | none => .skip
  | some c =>
    let mates := q.members c.task c.gath
    let closed := !(mates.all fun c => c.live == []) ||
      (!(q.streams.any fun kv => kv.2.task == c.task && kv.2.gath == c.gath) &&
        !(q.copies.any fun x => x.task == c.task && x.gath == c.gath))
    if c.stopping || (c.live == [] && d.slotQuiet n c && closed) then
      .all [dropWaits fun m s => m == n && s == slot,
        updQuire n fun q =>
          let cs := q.caravans.filter fun x => x.slot != slot
          let gs := if mates.length = 1 then q.gaths.filter fun g => !(g.task == c.task && g.num == c.gath) else q.gaths
          { q with
            caravans := cs
            gaths := gs
            accs := q.accs.filter fun a => a.slot != slot
            fences := q.fences.filter fun f => f.slot != slot
            bars := q.bars.filter fun b => b.slot != slot
            stalls := q.stalls.filter fun s => s.slot != slot
            arr := if gs = [] then [] else q.arr
            late := if gs = [] then [] else q.late }]
    else .skip

/-! ### Commands -/

def execBra (sel : Sel) (w : BaseW) (s : State) : Host.Outcome State Fault Refusal := cmd (actBra sel w) s
def execBraR (sel : Sel) (w : BaseW) (s : State) : Host.Outcome State Fault Refusal := cmd (actBraR sel w) s
def execExit (sel : Sel) (w : BaseW) (s : State) : Host.Outcome State Fault Refusal := cmd (actExit sel w) s
def execNop (sel : Sel) (w : BaseW) (s : State) : Host.Outcome State Fault Refusal := cmd (actNop sel w) s
def execBarC (sel : Sel) (w : BaseW) (s : State) : Host.Outcome State Fault Refusal := cmd (actBarC sel w) s
def execBarG (sel : Sel) (w : BaseW) (s : State) : Host.Outcome State Fault Refusal := cmd (actBarG sel w) s
def execArrive (sel : Sel) (w : BaseW) (s : State) : Host.Outcome State Fault Refusal := cmd (actArrive sel w) s
def execAwait (sel : Sel) (w : BaseW) (s : State) : Host.Outcome State Fault Refusal := cmd (actAwait sel w) s
def execTallyAdd (sel : Sel) (w : BaseW) (s : State) : Host.Outcome State Fault Refusal := cmd (actTallyAdd sel w) s
def execTallyWait (sel : Sel) (w : BaseW) (s : State) : Host.Outcome State Fault Refusal := cmd (actTallyWait sel w) s
def execFence (sel : Sel) (w : BaseW) (s : State) : Host.Outcome State Fault Refusal := cmd (actFence sel w) s
def execGatheringPlace (p role : Nat) (s : State) : Host.Outcome State Fault Refusal := cmd (actGatheringPlace p role) s
def execSlotDrained (n slot : Nat) (s : State) : Host.Outcome State Fault Refusal := cmd (actSlotDrained n slot) s

end Sys2Proof.Machine
end

