-- ==== Sys2Proof/Machine/Matrix.lean ====
section
/-! DEFINITION. The matrix unit (10): tile descriptors and their checks, weight loads, passes, and MSTORE. -/

namespace Sys2Proof.Machine

/-- Passes for each block triple: three in MTILE.X. -/
def MOp.subs (o : MOp) : Nat := if o.kind == .mtileX then 3 else 1

/-- Loads and passes of an instruction. -/
def MOp.loadCount (o : MOp) : Nat :=
  if o.kind.isLoad then 1
  else if o.kind.isTile && o.desc.logical then blocksK o.kind o.desc * blocksN o.desc else 0
def MOp.passCount (o : MOp) : Nat :=
  if o.kind.isTile then blocksK o.kind o.desc * tilesPart o.desc * o.subs else 0

/-! ### The weight sets that an instruction will find (R329, R330, R334, R340, R346, R358) -/

/-- What the weight sets record, and the set that the last pass read. -/
structure Sets where
  fmt0 : Nat
  pair0 : Nat
  fmt1 : Nat
  pair1 : Nat
  last : Option Nat
  deriving DecidableEq, Repr

def Sets.put (v : Sets) (set fmt pair : Nat) : Sets :=
  if set = 0 then { v with fmt0 := fmt, pair0 := pair } else { v with fmt1 := fmt, pair1 := pair }

/-- The set that a pass after one from `last` does not read; set 0 where there has been none (R340). -/
def spareOf (last : Option Nat) : Nat :=
  match last with
  | some s => 1 - s
  | none => 0

/-- A load of B into both sets or one, and whether they hold half of an FP32 or a complex load (R345, R346). -/
def Sets.load (v : Sets) (k : MKind) (t : Tile) (set : Nat) : Sets :=
  if t.fmtB = 0 then (v.put 0 1 1).put 1 1 1
  else if cplxOf k t then (v.put 0 t.fmtB 2).put 1 t.fmtB 2
  else v.put set t.fmtB 0

def Mtx.sets (m : Mtx) : Sets :=
  m.loading.foldl (fun v l => v.put l.2.1 l.2.2.fmt l.2.2.pair)
    { fmt0 := m.set0.fmt, pair0 := m.set0.pair, fmt1 := m.set1.fmt, pair1 := m.set1.pair, last := m.last }

/-- The sets after a queued instruction has done what it still has to do. The third pass of a complex MTILE.X reads both
sets, so either may be the one that the next load goes to. -/
def MOp.leaves (o : MOp) (v : Sets) : List Sets :=
  let t := o.desc
  if o.kind.isLoad then [if o.loads = 0 then v.load o.kind t t.wset else v]
  else if !o.kind.isTile then [v]
  else if o.kind == .mtileX then
    let v := if o.loads < o.loadCount then v.load o.kind t 0 else v
    (if t.cplx then [0, 1] else [0]).map fun s => { v with last := some s }
  else if !t.logical then [{ v with last := some t.wset }]
  else
    let begun := decide ((o.loads - 1) * blocksM t < o.passes)
    let cur := if o.loads = 0 || !begun then spareOf v.last else v.last.getD 0
    let next := if o.loads = 0 then cur else 1 - cur
    let more := o.loadCount - o.loads
    let v := if 1 ≤ more then v.put next t.fmtB 0 else v
    let v := if 2 ≤ more then v.put (1 - next) t.fmtB 0 else v
    [{ v with last := some (if more = 0 then cur else (next + more - 1) % 2) }]

/-- The sets as an instruction behind the queue may find them. -/
def Mtx.found (m : Mtx) : List Sets := m.queue.foldl (fun l o => (l.flatMap o.leaves).eraseDups) [m.sets]

/-- A physical form finds what it needs in the sets (R329, R330, R358). -/
def Sets.serve (v : Sets) (k : MKind) (t : Tile) : Bool :=
  if t.logical || !k.isTile then true
  else if k == .mtileX then
    let p := if t.cplx then 2 else 1
    v.pair0 == p && v.pair1 == p
  else pairs t.fmtA (if t.wset = 0 then v.fmt0 else v.fmt1)

/-- The fault of an MTX instruction at issue, the first in the order of R287. -/
def mtxFault (d : Dev) (n : Nat) (g : Gathering) (k : MKind) (t : Tile) (tile : Nat) : Option Nat :=
  if tileIllegal (d.sigFill (n / 12)) k t || (d.quire n).mtx.found.all (fun v => !v.serve k t) then some fkIllegal
  else if tileMisaligned k t then some fkMisaligned
  else if (extents k t).any fun e => e.outside g.size then some fkLeafRange
  else if isRecto n && (k == .mtileB || k == .mloadT) then some fkRole
  else if accTiles n < tile + tilesOf k t then some fkAccRange
  else none

/-- Issue an MTX instruction: it enters the queue of eight (R284). -/
def issueMtx (sel : Sel) (w : LongW) (k : MKind) (op : Nat) : Act :=
  issueLong sel 8 op w fun x =>
    .all [ungateArrays x.n, withDesc x 32 fun v => .dyn fun d =>
      let t := tileOf v
      let tile := field w.ext 0 8
      match mtxFault d x.n x.g k t tile with
      | some f => x.fault f
      | none => newId x.task.id fun id => updQuire x.n fun q =>
        { q with mtx := { q.mtx with queue := q.mtx.queue ++ [⟨id, x.slot, x.task.id, x.g.num, x.mask, k, tile,
          bit w.ext 8, t, x.c.key, 0, 0, 0⟩] } }]

def actMtileF (sel : Sel) (w : LongW) : Act := issueMtx sel w .mtileF 0x00
def actMtileB (sel : Sel) (w : LongW) : Act := issueMtx sel w .mtileB 0x01
def actMtileX (sel : Sel) (w : LongW) : Act := issueMtx sel w .mtileX 0x02
def actMload (sel : Sel) (w : LongW) : Act := issueMtx sel w .mload 0x03
def actMloadT (sel : Sel) (w : LongW) : Act := issueMtx sel w .mloadT 0x04
def actMstore (sel : Sel) (w : LongW) : Act := issueMtx sel w .mstore 0x05

/-! ### Elements (R333) -/

/-- Element i of a stored row that begins at a leaf offset. -/
def Quire.elem (q : Quire) (g : Gathering) (fmt base i : Nat) : Nat :=
  if fmt = 5 then field (q.leafByte g (base + i / 2)).toNat (4 * (i % 2)) 4
  else q.leafNat g (base + i * esize fmt) (esize fmt)

/-- Part c (0 real, 1 imaginary) of element (i, j) of an operand. -/
def Quire.operand (q : Quire) (g : Gathering) (off pitch fmt : Nat) (cplx trans : Bool) (i j c : Nat) : Nat :=
  let r := if trans then j else i
  let e := if trans then i else j
  q.elem g fmt (off + r * pitch) (if cplx then 2 * e + c else e)

/-- A value rounded to FP32, nearest even. -/
def r32 (v : Val) : Val := fp32.decode (fp32.round 0 0 v)

/-- The bits of an FP32 value. -/
def bits32 (v : Val) : Word := BitVec.ofNat 32 (fp32.round 0 0 v)

/-- The two BF16 halves of an FP32 value (R346): hi and lo. -/
def bfHi (v : Val) : Nat := bf16.round 0 0 v
def bfLo (v : Val) : Nat := bf16.round 0 0 (v.add (bf16.decode (bfHi v)).neg)

/-! ### Weight loads (R340, R345, R346) -/

/-- A weight set made from its codes and scales. -/
def wsetOf (fmt pair rows : Nat) (code : Nat → Nat → Nat) (scale : Nat → Nat → Nat) : WSet :=
  { fmt := fmt, pair := pair,
    w := (List.range (rows * 32)).filterMap fun i =>
      let v := code (i / 32) (i % 32)
      if v = 0 then none else some (i, v),
    scale := if fmt = 5 then (List.range 128).filterMap fun i =>
        let v := scale (i / 32) (i % 32)
        if v = 0 then none else some (i, v)
      else [] }

/-- The weight block (kb, j) of an instruction as the sets it goes to: set and contents. -/
def Quire.weightBlock (q : Quire) (g : Gathering) (o : MOp) (kb j set : Nat) : List (Nat × WSet) :=
  let t := o.desc
  let f := t.fmtB
  let cx := cplxOf o.kind t
  let bk := if f = 0 ∨ cx then 32 else kp f
  let inside := fun k n : Nat =>
    !o.kind.isTile || (decide (kb * bk + k < innerOf o.kind t) && decide (j * 32 + n < colsOf t))
  let code := fun c k n => q.operand g t.bOff t.ldb f cx (transB o.kind t) (kb * bk + k) (j * 32 + n) c
  let put := fun (fmt pair : Nat) (v : Nat → Nat → Nat) =>
    wsetOf fmt pair bk (fun k n => if inside k n then v k n else 0) fun b n =>
      if inside (32 * b) n then (q.leafByte g (t.sbOff + (kb * 4 + b) * t.sbPitch + j * 32 + n)).toNat else 127
  if f = 0 then
    [(0, put 1 1 fun k n => bfHi (fp32.decode (code 0 k n))), (1, put 1 1 fun k n => bfLo (fp32.decode (code 0 k n)))]
  else if cx then [(0, put f 2 (code 0)), (1, put f 2 (code 1))]
  else [(set, put f 0 (code 0))]

/-- The fold sequencer may load the next block: the first pass of the block before has started, or in MTILE.X, which
fills both sets, its last one (R340). -/
def MOp.mayLoad (o : MOp) : Bool :=
  let perBlock := blocksM o.desc * o.subs
  decide (o.loads < o.loadCount) &&
  (o.loads == 0 || decide ((if o.subs = 3 then o.loads * perBlock else (o.loads - 1) * perBlock + 1) ≤ o.passes))

/-- The set that a load of the fold sequencer goes to (R340). -/
def Mtx.spare (m : Mtx) : Nat := spareOf m.last

/-- The instruction at the head has started for the last time. -/
def MOp.over (o : MOp) : Bool := o.loads == o.loadCount && o.passes == o.passCount

def Mtx.setHead (m : Mtx) (o : MOp) : Mtx :=
  { m with queue := if o.over then m.queue.drop 1 else o :: m.queue.drop 1 }

/-- The banks that reading an operand's rows takes, one access for each 64-byte row touched (R289, R355). -/
def Extent.banks (e : Extent) : List Nat :=
  (List.range e.rows).flatMap fun r => (linesOf (e.off + r * e.pitch) e.bytes).map fun l => l / 64 % 16

/-- The rows of A that one pass reads (block row i, inner block kb), or the rows of B that one load reads (inner block
kb, block column j), with their FP4 scales. -/
def MOp.partA (o : MOp) (kb i : Nat) : List Extent :=
  let t := o.desc
  let cx := cplxOf o.kind t
  let bk := if o.kind == .mtileX then 32 else kp t.fmtA
  let m := min 8 (rowsOf t - 8 * i)
  let k := min bk (innerOf o.kind t - bk * kb)
  (if transA o.kind t then ⟨t.aOff + bk * kb * t.lda + rowBytes t.fmtA cx (8 * i), t.lda, k, rowBytes t.fmtA cx m⟩
    else ⟨t.aOff + 8 * i * t.lda + rowBytes t.fmtA cx (bk * kb), t.lda, m, rowBytes t.fmtA cx k⟩) ::
  (if t.fmtA = 5 then [⟨t.saOff + 8 * i * t.saPitch + 4 * kb, t.saPitch, m, ceilDiv k 32⟩] else [])
def MOp.partB (o : MOp) (kb j : Nat) : List Extent :=
  let t := o.desc
  let cx := cplxOf o.kind t
  let bk := if t.fmtB = 0 ∨ cx then 32 else kp t.fmtB
  let n := if o.kind.isLoad then 32 else min 32 (colsOf t - 32 * j)
  let k := if o.kind.isLoad then bk else min bk (innerOf o.kind t - bk * kb)
  (if transB o.kind t then ⟨t.bOff + 32 * j * t.ldb + rowBytes t.fmtB cx (bk * kb), t.ldb, n, rowBytes t.fmtB cx k⟩
    else ⟨t.bOff + bk * kb * t.ldb + rowBytes t.fmtB cx (32 * j), t.ldb, k, rowBytes t.fmtB cx n⟩) ::
  (if t.fmtB = 5 then [⟨t.sbOff + 4 * kb * t.sbPitch + 32 * j, t.sbPitch, ceilDiv k 32, n⟩] else [])

/-- MTX_WEIGHT_LOAD_START: the instruction at the head reads a weight block from the leaf (R340, R345, R354). -/
def actMtxWeightLoadStart (n : Nat) : Act := .dyn fun d =>
  let q := d.quire n
  match q.mtx.queue with
  | [] => .skip
  | o :: _ =>
    match q.gathering o.task o.gath with
    | none => .skip
    | some g =>
      if !o.mayLoad then .skip
      else
        let kb := o.loads / blocksN o.desc
        let j := o.loads % blocksN o.desc
        let kb := if o.kind.isLoad then 0 else kb
        let j := if o.kind.isLoad then 0 else j
        let sets := q.weightBlock g o kb j (if o.kind.isLoad then o.desc.wset else q.mtx.spare)
        .all [updQuire n fun q =>
            let m : Mtx := { q.mtx with
              loading := q.mtx.loading ++ sets.map fun s => (o.id, s.1, s.2)
              side := q.mtx.side ++ ((o.partB kb j).flatMap Extent.banks).map fun b => (o.id, b) }
            { q with mtx := m.setHead { o with loads := o.loads + 1 } },
          updQuire n Quire.settle, Act.add (MTX_STRETCH_COUNT_LOADS n) 1]

/-- MTX_WEIGHT_SET_READY: the oldest load under way is complete. Its leaf reads no longer run alongside a pass (log 116). -/
def actMtxWeightSetReady (n : Nat) : Act := updQuire n fun q =>
  match q.mtx.loading with
  | [] => q
  | (id, _) :: _ =>
    let m : Mtx := { q.mtx with
      loading := q.mtx.loading.filter fun l => l.1 != id
      side := q.mtx.side.filter fun b => b.1 != id }
    { q with
      mtx := (q.mtx.loading.filter fun l => l.1 == id).foldl
        (fun m l => if l.2.1 = 0 then { m with set0 := l.2.2 } else { m with set1 := l.2.2 }) m }

/-! ### Passes (R327, R328, R339, R354 to R360) -/

/-- An operand element as a pass sees it; none is padding. -/
abbrev Elem := Option Val

/-- A product of elements of a format; with a padding element it is +0 (R338). -/
def prod (fmt : Nat) : Elem → Elem → Val
  | some a, some b => mulAs fmt a b
  | _, _ => .fin false 0 0

/-- A column sum (R328) in a format: x[r] is exact, and each step rounds. -/
def colSum (fmt d : Nat) (a b : Nat → Elem) (scaled : Nat → Val → Val) : Val :=
  let x := fun r => scaled r (Val.sum ((List.range d).map fun e => prod fmt (a (d * r + e)) (b (d * r + e))))
  (List.range 7).foldl (fun s r => r32 (s.add (x (r + 1)))) (r32 (x 0))

/-- Weight (k, n) of a set. -/
def WSet.val (s : WSet) (k n : Nat) : Val := decodeAs s.fmt (Store.get zeroNat (k * 32 + n) s.w)

/-- A block-scaled x (R360): 0xFF is NaN. -/
def scaleFp4 (ea eb : Nat) (v : Val) : Val :=
  if ea = 255 ∨ eb = 255 then .nan else v.scale ((ea : Int) + eb - 254)

/-- The column sums s of pass (kb, j, i) for row m and column n, one for a real and two for a complex product
(R328, R356, R357). -/
def Quire.passSums (q : Quire) (g : Gathering) (o : MOp) (set : WSet) (kb j i m n : Nat) : List Val :=
  let t := o.desc
  let cx := cplxOf o.kind t
  let bk := if o.kind == .mtileX then 32 else kp t.fmtA
  let kOk := fun k : Nat => decide (kb * bk + k < innerOf o.kind t)
  let nOk := decide (j * 32 + n < colsOf t)
  let a := fun c k : Nat =>
    if kOk k then some (decodeAs t.fmtA (q.operand g t.aOff t.lda t.fmtA cx (transA o.kind t) (8 * i + m) (kb * bk + k) c))
    else none
  let b := fun (s : WSet) (k : Nat) => if kOk k && nOk then some (s.val k n) else none
  let plus := fun (x y : Elem) => match x, y with
    | some x, some y => some (x.add y)
    | _, _ => none
  let s0 := q.mtx.set0
  let s1 := q.mtx.set1
  if o.kind == .mtileX then
    if cx then
      let v1 := colSum t.fmtA 4 (a 0) (b s0) fun _ v => v
      let v2 := colSum t.fmtA 4 (a 1) (b s1) fun _ v => v
      let v3 := colSum t.fmtA 4 (fun k => plus (a 0 k) (a 1 k)) (fun k => plus (b s0 k) (b s1 k)) fun _ v => v
      [r32 (v1.add v2.neg), r32 ((r32 (v3.add v1.neg)).add v2.neg)]
    else
      let hi := fun k => (a 0 k).map fun v => bf16.decode (bfHi v)
      let lo := fun k => (a 0 k).map fun v => bf16.decode (bfLo v)
      let v1 := colSum 1 4 lo (b s0) fun _ v => v
      let v2 := colSum 1 4 hi (b s1) fun _ v => v
      let v3 := colSum 1 4 hi (b s0) fun _ v => v
      [r32 ((r32 (v1.add v2)).add v3)]
  else if t.fmtA = 5 then
    let ea := fun r => (q.leafByte g (t.saOff + (8 * i + m) * t.saPitch + kb * 4 + r / 2)).toNat
    let eb := fun r => Store.get zeroNat (r / 2 * 32 + n) set.scale
    [colSum 5 16 (a 0) (b set) fun r v => if kOk (16 * r) && nOk then scaleFp4 (ea r) (eb r) v else v]
  else [colSum t.fmtA (depth t.fmtA) (a 0) (b set) fun _ v => v]

/-- Accumulator element e of a tile. -/
def Mtx.accElem (m : Mtx) (tile e : Nat) : Word := Store.get zeroWord (tile * 256 + e) m.acc

/-- What pass (kb, j, i) leaves in its tiles (R328, R338). -/
def Quire.passOut (q : Quire) (g : Gathering) (o : MOp) (set : WSet) (kb j i : Nat) : List (Nat × Word) :=
  let t := o.desc
  let acc := o.acc || decide (0 < kb)
  (List.range 256).flatMap fun e =>
    let m := e / 32
    let n := e % 32
    let tile := fun c => o.tile + c * tilesPart t + i * blocksN t + j
    if 8 * i + m < rowsOf t ∧ 32 * j + n < colsOf t then
      let ss := q.passSums g o set kb j i m n
      (List.range ss.length).map fun c =>
        let s := ss.getD c .nan
        (tile c * 256 + e,
          bits32 (if acc then (fp32.decode (q.mtx.accElem (tile c) e).toNat).add s else s))
    else if acc then []
    else (List.range (if cplxOf o.kind t then 2 else 1)).map fun c => (tile c * 256 + e, 0)

/-- The tiles of output block (i, j). -/
def MOp.blockTiles (o : MOp) (j i : Nat) : List Nat :=
  (List.range (if cplxOf o.kind o.desc then 2 else 1)).map fun c =>
    o.tile + c * tilesPart o.desc + i * blocksN o.desc + j

/-- The set that the next pass reads: WSET in physical form, in logical form the one last loaded. -/
def Mtx.passSet (m : Mtx) (o : MOp) (first : Bool) : Nat :=
  if !o.desc.logical then o.desc.wset
  else if first then m.spare else m.last.getD 0

/-- Of the next pass of an instruction: the inner block, the block column and row, and which of a triple's passes it is. -/
def MOp.nextPass (o : MOp) : Nat × Nat × Nat × Nat :=
  let triple := o.passes / o.subs
  (triple / tilesPart o.desc, triple / blocksM o.desc % blocksN o.desc, triple % blocksM o.desc, o.passes % o.subs)

/-- The weight sets that the next pass reads are not being loaded. -/
def Mtx.setReady (m : Mtx) (o : MOp) : Bool :=
  let ready := fun k : Nat => !(m.loading.any fun l => l.2.1 == k)
  if o.kind == .mtileX then ready 0 && ready 1 else ready (m.passSet o (o.passes % (blocksM o.desc * o.subs) == 0))

/-- What the head of the matrix queue waits for, as MTX_QUEUE.HEAD_WAIT shows it, and with code 2 the tile: 2 a pass under way
writes a tile of its next pass or of its accumulator read, 3 its weight set is being loaded, 4 another load runs (R354, R370).
The other codes tell of times that the model leaves out (log 9). -/
def Quire.mtxWait (q : Quire) : Nat × Nat :=
  match q.mtx.queue with
  | [] => (0, 0)
  | o :: _ =>
    let (_, j, i, _) := o.nextPass
    let tiles := if o.kind.isTile then o.blockTiles j i else (List.range (tilesOf o.kind o.desc)).map fun t => o.tile + t
    match tiles.find? fun t => q.mtx.passes.any fun p => p.tiles.contains t with
    | some t => (2, t)
    | none =>
      if o.kind.isTile && !q.mtx.setReady o then (3, 0)
      else if o.kind.isLoad && q.mtx.loading != [] then (4, 0) else (0, 0)

/-- The factor F of a quire, as the code of MTX_ARRAY_STATUS.FACTOR: 0 F = 1, 1 F = 8/7, 2 F = 2, 3 F = 16/7 (R363). -/
def Dev.factor (d : Dev) (n : Nat) : Nat :=
  ([0, 1, 2, 3].map fun a =>
    if d.arrayFenced n a then 0
    else (if d.arrayFenced n (a ^^^ 2) then 2 else 0) + bv (d.arrayNarrowed n a)).foldl max 0

/-- How often the busiest bank of some is read. -/
def busiest (l : List Nat) : Nat := ((List.range 16).map fun b => (l.filter (· == b)).length).foldl max 0

/-- MTX_PASS_START: the next pass of the instruction at the head starts (R354); its results stand in its tiles at
MTX_PASS_RESULT. -/
def actMtxPassStart (n : Nat) : Act := .dyn fun d =>
  let q := d.quire n
  match q.mtx.queue with
  | [] => .skip
  | o :: _ =>
    match q.gathering o.task o.gath with
    | none => .skip
    | some g =>
      let t := o.desc
      let (kb, j, i, sub) := o.nextPass
      let block := kb * blocksN t + j
      let s := q.mtx.passSet o (o.passes % (blocksM t * o.subs) == 0)
      let tiles := o.blockTiles j i
      if !o.kind.isTile || o.passes == o.passCount || (t.logical && decide (o.loads ≤ block)) ||
          !q.mtx.setReady o ||
          (q.mtx.passes.any fun p => p.tiles.any tiles.contains) then .skip
      else if !q.mtx.sets.serve o.kind t then endTask o.task stFault fkIllegal
      else
        let last := sub + 1 == o.subs
        let run := fun used : Nat => Act.all [
          updQuire n fun q =>
            let m : Mtx := { q.mtx with
              passes := q.mtx.passes ++ (if last then
                [⟨o.id, tiles, q.passOut g o (if s = 0 then q.mtx.set0 else q.mtx.set1) kb j i⟩] else [])
              last := some used
              side := [] }
            { q with mtx := m.setHead { o with passes := o.passes + 1 } },
          updQuire n Quire.settle,
          Act.add (MTX_PASS_COUNT_PASSES n) 1,
          Act.when (d.factor n != 0) (Act.add (MTX_PASS_COUNT_SLOW_PASSES n) 1),
          Act.add (MTX_STRETCH_COUNT_TCYCLES n) (busiest ((o.partA kb i).flatMap Extent.banks ++ q.mtx.side.map Prod.snd) - 16)]
        if o.kind == .mtileX then
          (if t.cplx && last then Act.free fun v => run (v.toNat % 2) else run (if sub = 1 then 1 else 0))
        else run s

/-- MTX_PASS_RESULT: the oldest pass under way is complete. -/
def actMtxPassResult (n : Nat) : Act := updQuire n fun q =>
  match q.mtx.passes with
  | [] => q
  | p :: rest =>
    { q with mtx := { q.mtx with
      passes := rest
      acc := p.out.foldl (fun s x => Store.put zeroWord x.1 x.2 s) q.mtx.acc } }

/-! ### MSTORE (R338, R350, R369) -/

/-- The bytes of part c of element (m, n) of an MSTORE. -/
def Quire.storeElem (q : Quire) (o : MOp) (m n c : Nat) : List Byte :=
  let t := o.desc
  let tile := o.tile + c * tilesPart t + m / 8 * blocksN t + n / 32
  let i := m * colsOf t + n
  let g := if t.rnd = 2 then genWord o.key (BitVec.ofNat 32 (t.srBase + (if t.cplx then 2 * i + c else i))) else 0
  leBytes (esize t.fmtA) (convert 0 t.fmtA t.rnd g (q.mtx.accElem tile (m % 8 * 32 + n % 32)).toNat)

/-- The row m of an MSTORE. -/
def Quire.storeRow (q : Quire) (o : MOp) (m : Nat) : List Byte :=
  (List.range (colsOf o.desc)).flatMap fun n =>
    q.storeElem o m n 0 ++ (if o.desc.cplx then q.storeElem o m n 1 else [])

/-- MSTORE at the head: its tiles hold their results, and its rows go to the leaf. -/
def mstoreRun (n : Nat) (o : MOp) : Act := .dyn fun d =>
  let q := d.quire n
  match q.gathering o.task o.gath with
  | none => .skip
  | some g =>
    .all [updQuire n fun q => (List.range (rowsOf o.desc)).foldl
        (fun q' m => q'.leafPut g (o.desc.aOff + m * o.desc.lda) (q.storeRow o m)) q,
      updQuire n fun q => Quire.settle { q with mtx := { q.mtx with queue := q.mtx.queue.drop 1 } }]

/-- The tiles of the instruction at the head of an accumulator read hold their results. -/
def Quire.tilesReady (q : Quire) (o : MOp) : Bool :=
  !(q.mtx.passes.any fun p => p.tiles.any fun t => decide (o.tile ≤ t) && decide (t < o.tile + tilesOf o.kind o.desc))

/-! ### Commands -/

def execMtileF (sel : Sel) (w : LongW) (s : State) : Host.Outcome State Fault Refusal := cmd (actMtileF sel w) s
def execMtileB (sel : Sel) (w : LongW) (s : State) : Host.Outcome State Fault Refusal := cmd (actMtileB sel w) s
def execMtileX (sel : Sel) (w : LongW) (s : State) : Host.Outcome State Fault Refusal := cmd (actMtileX sel w) s
def execMload (sel : Sel) (w : LongW) (s : State) : Host.Outcome State Fault Refusal := cmd (actMload sel w) s
def execMloadT (sel : Sel) (w : LongW) (s : State) : Host.Outcome State Fault Refusal := cmd (actMloadT sel w) s
def execMstore (sel : Sel) (w : LongW) (s : State) : Host.Outcome State Fault Refusal := cmd (actMstore sel w) s
def execMtxPassStart (n : Nat) (s : State) : Host.Outcome State Fault Refusal := cmd (actMtxPassStart n) s
def execMtxPassResult (n : Nat) (s : State) : Host.Outcome State Fault Refusal := cmd (actMtxPassResult n) s
def execMtxWeightLoadStart (n : Nat) (s : State) : Host.Outcome State Fault Refusal := cmd (actMtxWeightLoadStart n) s
def execMtxWeightSetReady (n : Nat) (s : State) : Host.Outcome State Fault Refusal := cmd (actMtxWeightSetReady n) s

end Sys2Proof.Machine
end

