-- ==== Sys2Proof/Machine/Vector.lean ====
section
/-! DEFINITION. The vector engine (12) and DMASK (13): operand references, functions, compress and expand, reductions,
leaf transfers, and the start and end of an instruction. -/

namespace Sys2Proof.Machine

/-! ### References (R393, R394) -/

/-- Where byte 0 of element i of size z lies in the engine: registers at 0 to 8,191, then the operand cache. -/
def vplace (r i z : Nat) : Nat :=
  if refCache r then 8192 + (r % 65536 - r % 65536 % z + i * z) % 65536
  else (r % 32 + i * z / 256) % 32 * 256 + i * z % 256

/-- Element i of an operand in the engine. -/
def vget (m : Nat → Byte) (r z i : Nat) : Nat := leNat ((List.range z).map fun k => m (vplace r i z + k))

/-- The bytes of a value written to element i. -/
def vput (r z i v : Nat) : List (Nat × Byte) :=
  (List.range z).map fun k => (vplace r i z + k, BitVec.ofNat 8 (v / 256 ^ k))

/-- A source operand: an element, or for a scalar reference the value of its uniform register. -/
def vsrc (m : Nat → Byte) (r : Nat) (u : Word) (z i : Nat) : Nat :=
  if refScalar r then u.toNat % 256 ^ z else vget m r z i

/-- The registers and 256-byte rows of elements 0 to n - 1 (R402): rows have numbers from 32 on. -/
def vspan (r z n : Nat) : List Nat :=
  let bytes := n * z
  if n = 0 then []
  else if refCache r then
    let s := r % 65536 - r % 65536 % z
    ((List.range ((s + bytes - 1) / 256 - s / 256 + 1)).map fun i => 32 + (s / 256 + i) % 256)
  else (List.range ((bytes - 1) / 256 + 1)).map fun i => (r % 32 + i) % 32

/-! ### Functions of VOP (R398) -/

/-- Bytes of an element of A and of D. -/
def vzA (f z : Nat) : Nat :=
  match f with
  | 0x30 | 0x32 => 2
  | 0x36 => 1
  | _ => z
def vzD (f z : Nat) : Nat :=
  match f with
  | 0x31 | 0x33 => 2
  | 0x34 | 0x35 => 1
  | _ => z

/-- One element of VOP, under the generator's word g. -/
def vopFn (f width rnd : Nat) (g : Word) (a b d : Nat) : Nat :=
  let fm := if width = 0 then fp32 else bf16
  let w := if width = 0 then 32 else 16
  let v := fm.decode
  let up := fun x : Nat => if width = 0 then x else x * 65536
  let fl := fun x : Bool => bv x
  let sa := signed w a
  let sb := signed w b
  let wrap := fun i : Int => (BitVec.ofInt w i).toNat
  match f with
  | 0x00 => fm.round rnd g ((v a).add (v b))
  | 0x01 => fm.round rnd g ((v a).add (v b).neg)
  | 0x02 => fm.round rnd g ((v a).mul (v b))
  | 0x03 => fm.round rnd g (((v a).mul (v b)).add (v d))
  | 0x04 => fm.minMax false a b
  | 0x05 => fm.minMax true a b
  | 0x06 => if fm.isNan a then fm.nan else a % 2 ^ (w - 1)
  | 0x07 => if fm.isNan a then fm.nan else a ^^^ 2 ^ (w - 1)
  | 0x08 => (frcp (BitVec.ofNat 32 a)).toNat
  | 0x09 => (frsq (BitVec.ofNat 32 a)).toNat
  | 0x0A => (fexp2 (BitVec.ofNat 32 a)).toNat
  | 0x0B => (flog2 (BitVec.ofNat 32 a)).toNat
  | 0x10 => wrap (sa + sb)
  | 0x11 => wrap (sa - sb)
  | 0x12 => wrap (sa * sb)
  | 0x13 => a &&& b
  | 0x14 => a ||| b
  | 0x15 => a ^^^ b
  | 0x16 => a * 2 ^ (b % w) % 2 ^ w
  | 0x17 => a / 2 ^ (b % w)
  | 0x18 => ((BitVec.ofNat w a).sshiftRight (b % w)).toNat
  | 0x19 => wrap (min sa sb)
  | 0x1A => wrap (max sa sb)
  | 0x20 => fl (cmpFp32 0 (up a) (up b))
  | 0x21 => fl (cmpFp32 1 (up a) (up b))
  | 0x22 => fl (cmpFp32 2 (up a) (up b))
  | 0x23 => fl (cmpFp32 3 (up a) (up b))
  | 0x24 => fl (a == b)
  | 0x25 => fl (decide (sa < sb))
  | 0x28 => if d != 0 then a else b
  | 0x30 => convert 1 0 0 0 a
  | 0x31 => convert 0 1 rnd g a
  | 0x32 => convert 2 0 0 0 a
  | 0x33 => convert 0 2 rnd g a
  | 0x34 => convert 0 3 rnd g a
  | 0x35 => convert 0 4 rnd g a
  | 0x36 => convert 3 0 0 0 a
  | 0x37 => convert 7 0 rnd g a
  | 0x38 => convert 0 7 rnd g a
  | _ => a

/-! ### Blocks (R403) -/

/-- What an instruction has computed so far: the engine's bytes as written, the writes in order, and a count. -/
structure VAcc where
  view : Nat → Byte
  out : List (Nat × Byte)
  k : Nat

def VAcc.write (a : VAcc) (ws : List (Nat × Byte)) (k : Nat) : VAcc :=
  let r := ws.reverse
  { view := fun i => match r.find? fun x => x.1 == i with
      | some x => x.2
      | none => a.view i,
    out := a.out ++ ws, k := k }

/-- Work through n elements in blocks, each block reading all its sources before it writes. -/
def vblocks (blk n : Nat) (m : Nat → Byte) (f : VAcc → List Nat → List (Nat × Byte) × Nat) : VAcc :=
  (List.range (ceilDiv n blk)).foldl (fun a b =>
    let r := f a ((List.range (min blk (n - b * blk))).map fun i => b * blk + i)
    a.write r.1 r.2) { view := m, out := [], k := 0 }

/-- VOP: the writes, and the last result. -/
def VOp.runVop (o : VOp) (m : Nat → Byte) : VAcc :=
  let zd := vzD o.func o.z
  let blk := if o.width = 0 then 64 else 128
  vblocks blk o.n m fun acc is =>
    let val := fun i : Nat =>
      vopFn o.func o.width o.rnd (genWord o.key (o.base + BitVec.ofNat 32 i))
        (vsrc acc.view o.a o.aval (vzA o.func o.z) i)
        (if vOne o.func then 0 else vsrc acc.view o.b o.bval o.z i)
        (if vReadsD o.func then vsrc acc.view o.d o.dval zd i else 0)
    (if refScalar o.d then [] else is.flatMap fun i => vput o.d zd i (val i), val (is.getLastD 0))

/-- VCOMPRESS (R407, R409). -/
def VOp.runCompress (o : VOp) (m : Nat → Byte) : VAcc :=
  vblocks 64 o.n m fun acc is =>
    let hit := is.filter fun i => vget acc.view o.b o.z i != 0
    ((List.range hit.length).flatMap fun j => vput o.d o.z (acc.k + j) (vget acc.view o.a o.z (hit.getD j 0)),
      acc.k + hit.length)

/-- VEXPAND (R408). -/
def VOp.runExpand (o : VOp) (m : Nat → Byte) : VAcc :=
  vblocks 64 o.n m fun acc is =>
    let hit := is.filter fun i => vget acc.view o.b o.z i != 0
    ((List.range hit.length).flatMap fun j => vput o.d o.z (hit.getD j 0) (vget acc.view o.a o.z (acc.k + j)),
      acc.k + hit.length)

/-! ### Reductions (R410, R411) -/

/-- An element as a 32-bit code: WIDTH 1 is widened. -/
def vwiden (f width x : Nat) : Nat :=
  if width = 0 then x else if f < 0x10 then x * 65536 else (BitVec.ofInt 32 (signed 16 x)).toNat

def vredFirst (f e : Nat) : Nat :=
  let v := fp32.decode e
  match f with
  | 0x06 => if fp32.isNan e then fp32.nan else e % 2 ^ 31
  | 0x0C => fp32.round 0 0 (v.mul v)
  | _ => if f < 0x10 then fp32.round 0 0 v else e

def vredComb (f s t : Nat) : Nat :=
  match f with
  | 0x00 | 0x0C => fp32.round 0 0 ((fp32.decode s).add (fp32.decode t))
  | 0x04 => fp32.minMax false s t
  | 0x05 | 0x06 => fp32.minMax true s t
  | 0x10 => (s + t) % 2 ^ 32
  | 0x19 => if signed 32 s ≤ signed 32 t then s else t
  | _ => if signed 32 s ≤ signed 32 t then t else s

def vredStep (f s e : Nat) : Nat :=
  if f = 0x0C then fp32.round 0 0 ((fp32.decode s).add ((fp32.decode e).mul (fp32.decode e)))
  else vredComb f s (vredFirst f e)

/-- The result of a reduction over n elements. -/
def vred (f n : Nat) (e : Nat → Nat) : Nat :=
  let lane : Nat → Option Nat := fun l =>
    if n ≤ l then none
    else some ((List.range ((n - 1 - l) / 64)).foldl (fun s k => vredStep f s (e (l + 64 * (k + 1)))) (vredFirst f (e l)))
  let half := fun (s : Nat → Option Nat) (h : Nat) => fun l : Nat =>
    match s l, s (l + h) with
    | some a, some b => some (vredComb f a b)
    | some a, none => some a
    | none, x => x
  (([32, 16, 8, 4, 2, 1].foldl half lane) 0).getD 0

/-! ### Issue (R281, R396, R397, R399, R405) -/

/-- The scalar that a reference names. -/
def scalarOf (c : Caravan) (r : Nat) : Word := if refScalar r then c.uni (refUreg r) else 0

/-- Issue a VEC instruction or DMASK: it enters the queue of four (R284). A leaf address that names another quire is judged
there when the access arrives (R297, R405). -/
def issueVec (sel : Sel) (w : LongW) (k : VKind) (cls op : Nat) : Act :=
  let (cnt, f, wd, rnd) := fieldsV w.ext
  issueLong sel cls op w fun x => .dyn fun d =>
    let z := if k == .dmask then 1 else if wd = 0 then 4 else 2
    let n := if cnt = 0 then x.vc.toNat else cnt
    let base := if rnd = 2 then (if cnt = 0 then x.read (w.c + 1) else x.vc) else 0
    let dv := (x.read w.dst).toNat
    let av := x.va.toNat
    let bv := x.vb.toNat
    let addr := k.leafRef dv av
    let fault := match addr with
      | some a =>
        if a % z != 0 then some fkMisaligned
        else if x.g.refuses x.n a (n * z) (d.cluster x.n) then some fkLeafRange else none
      | none => none
    let fault := fault.or (if n = 0 ∨ 4096 < n then some fkVcount else none)
    .all [ungateVector x.n, match fault with
      | some e => x.fault e
      | none => newId x.task.id fun id => updQuire x.n fun q =>
        { q with vec := { q.vec with queue := q.vec.queue ++ [{
            id := id, slot := x.slot, task := x.task.id, gath := x.g.num, cmask := x.mask, kind := k, n := n,
            func := f, width := wd, rnd := rnd, d := dv, a := av, b := bv,
            dreg := match opnd w.dst with
              | .u r => if r < 63 then r else 255
              | _ => 255,
            aval := scalarOf x.c av, bval := scalarOf x.c bv, dval := scalarOf x.c dv,
            base := base, key := x.c.key }] } }]

def actVop (sel : Sel) (w : LongW) : Act := issueVec sel w .vop 9 0x00
def actVcompress (sel : Sel) (w : LongW) : Act := issueVec sel w .vcompress 9 0x01
def actVexpand (sel : Sel) (w : LongW) : Act := issueVec sel w .vexpand 9 0x02
def actVred (sel : Sel) (w : LongW) : Act := issueVec sel w .vred 9 0x03
def actVld (sel : Sel) (w : LongW) : Act := issueVec sel w .vld 9 0x04
def actVst (sel : Sel) (w : LongW) : Act := issueVec sel w .vst 9 0x05
def actDmask (sel : Sel) (w : LongW) : Act := issueVec sel w .dmask 11 0x00

/-! ### Start and end (R401 to R403, R407, R412) -/

/-- The registers and rows an instruction counts as writing (R402). -/
def VOp.writes (o : VOp) : List Nat :=
  match o.kind with
  | .vop => if refScalar o.d then [] else vspan o.d (vzD o.func o.z) o.n
  | .vred => if refScalar o.d then [] else vspan o.d 4 1
  | .vst => []
  | .dmask => vspan o.d 1 o.n
  | _ => vspan o.d o.z o.n

/-- The registers and rows an instruction counts as reading. -/
def VOp.reads (o : VOp) : List Nat :=
  let src := fun r z : Nat => if refScalar r then [] else vspan r z o.n
  match o.kind with
  | .vop => src o.a (vzA o.func o.z) ++ (if vOne o.func then [] else src o.b o.z) ++
      (if vReadsD o.func then src o.d (vzD o.func o.z) else [])
  | .vred => src o.a o.z
  | .vcompress | .vexpand => vspan o.a o.z o.n ++ vspan o.b o.z o.n
  | .vst => vspan o.a o.z o.n
  | _ => []

def VOp.onLeaf (o : VOp) : Bool := o.kind == .vld || o.kind == .vst

/-- R402 lets an instruction start beside those that have started. -/
def Vec.free (v : Vec) (o : VOp) : Bool :=
  !(v.run.any fun r => r.op.writes.any fun k => o.reads.contains k || o.writes.contains k)

/-- What an instruction leaves at its end, computed from the engine and the leaf as they stand at its start. -/
def VOp.start (o : VOp) (m : Nat → Byte) (leaf : List Byte) : VRun :=
  match o.kind with
  | .vop =>
    let r := o.runVop m
    ⟨o, r.out, if refScalar o.d then [(refUreg o.d, BitVec.ofNat 32 r.k)] else [], []⟩
  | .vcompress =>
    let r := o.runCompress m
    ⟨o, r.out, if o.dreg < 63 then [(o.dreg + 1, BitVec.ofNat 32 r.k)] else [], []⟩
  | .vexpand => ⟨o, (o.runExpand m).out, [], []⟩
  | .vred =>
    let v := vred o.func o.n fun i => vwiden o.func o.width (vsrc m o.a o.aval o.z i)
    if refScalar o.d then ⟨o, [], [(refUreg o.d, BitVec.ofNat 32 v)], []⟩ else ⟨o, vput o.d 4 0 v, [], []⟩
  | .vld => ⟨o, (List.range o.n).flatMap fun i => vput o.d o.z i (leAt leaf (i * o.z) o.z), [], []⟩
  | .vst => ⟨o, [], [], (List.range o.n).flatMap fun i => leBytes o.z (vget m o.a o.z i)⟩
  | .dmask =>
    ⟨o, (List.range o.n).flatMap fun i =>
      vput o.d 1 i (if o.a ≤ (genWord o.key (BitVec.ofNat 32 (o.b + i))).toNat then 0x38 else 0), [], []⟩

/-- Tcycles of occupancy, bank refusals aside (R403, R405, R418). -/
def VOp.occupancy (o : VOp) (cross : Bool) : Nat :=
  match o.kind with
  | .vop => ceilDiv o.n (if o.width = 0 then 64 else 128)
  | .dmask => ceilDiv o.n 256
  | .vld | .vst => ceilDiv (o.n * o.z) (if cross then 64 else 256)
  | _ => ceilDiv o.n 64

/-- VEC_INSTRUCTION_START: the instruction at the head starts. A leaf operand that is no longer there is LEAF_RANGE
(R297, R299); a transfer waits for the VSTs before it into the bytes it touches (R369, R406). -/
def actVecInstructionStart (n : Nat) : Act := .dyn fun d =>
  let q := d.quire n
  match q.vec.queue with
  | [] => .skip
  | o :: rest =>
    let held := match d.vecLeaf n o with
      | some (m, g, a) => q.vec.run.any fun r => q.before o.slot o.cmask r.op.slot r.op.cmask r.op.id &&
          (d.vstStores n r.op).any fun s => s.meets (spanAt (m, g) a (o.n * o.z))
      | none => false
    if !q.vec.free o || held then .skip
    else
      let go := fun (leaf : List Byte) (cross : Bool) => Act.all [
        updQuire n fun q => Quire.settle { q with vec := { q.vec with
          queue := rest, run := q.vec.run ++ [o.start (fun i => Store.get zeroByte i q.vec.mem) leaf] } },
        Act.add (if o.onLeaf then VEC_INSTR_COUNT_LEAF n else VEC_INSTR_COUNT_PIPELINE n) 1,
        Act.add (if o.onLeaf then VEC_BUSY_COUNT_LEAF_TCYCLES n else VEC_BUSY_COUNT_PIPELINE_TCYCLES n)
          (o.occupancy cross)]
      if o.onLeaf then
        match d.vecLeaf n o with
        | some (m, g, a) =>
          .all [Act.when (o.kind == .vld) (crossRows n m a (o.n * o.z)),
            go ((d.quire m).leafBytes g a (o.n * o.z)) (m != n)]
        | none => endTask o.task stFault fkLeafRange
      else go [] false

/-- VEC_INSTRUCTION_END: a started instruction has written its last element. -/
def actVecInstructionEnd (n id : Nat) : Act := .dyn fun d =>
  match (d.quire n).vec.run.find? fun r => r.op.id == id with
  | none => .skip
  | some r =>
    .all [
      if r.op.kind == .vst then
        match d.vecLeaf n r.op with
        | some (m, g, a) => .all [crossRows n m a r.leaf.length, leafWrite m g a r.leaf]
        | none => endTask r.op.task stFault fkLeafRange
      else .skip,
      updQuire n fun q => Quire.settle { q with
        vec := { q.vec with
          run := q.vec.run.filter fun x => x.op.id != id
          mem := r.out.foldl (fun s x => Store.put zeroByte x.1 x.2 s) q.vec.mem }
        caravans := q.caravans.map fun c =>
          if c.slot == r.op.slot && c.task == r.op.task then
            r.uni.foldl (fun c x => { c with u := Store.put zeroWord x.1 x.2 c.u }) c
          else c }]

/-! ### Commands -/

def execVop (sel : Sel) (w : LongW) (s : State) : Host.Outcome State Fault Refusal := cmd (actVop sel w) s
def execVcompress (sel : Sel) (w : LongW) (s : State) : Host.Outcome State Fault Refusal := cmd (actVcompress sel w) s
def execVexpand (sel : Sel) (w : LongW) (s : State) : Host.Outcome State Fault Refusal := cmd (actVexpand sel w) s
def execVred (sel : Sel) (w : LongW) (s : State) : Host.Outcome State Fault Refusal := cmd (actVred sel w) s
def execVld (sel : Sel) (w : LongW) (s : State) : Host.Outcome State Fault Refusal := cmd (actVld sel w) s
def execVst (sel : Sel) (w : LongW) (s : State) : Host.Outcome State Fault Refusal := cmd (actVst sel w) s
def execDmask (sel : Sel) (w : LongW) (s : State) : Host.Outcome State Fault Refusal := cmd (actDmask sel w) s
def execVecInstructionStart (n : Nat) (s : State) : Host.Outcome State Fault Refusal := cmd (actVecInstructionStart n) s
def execVecInstructionEnd (n id : Nat) (s : State) : Host.Outcome State Fault Refusal :=
  cmd (actVecInstructionEnd n id) s

end Sys2Proof.Machine
end

