-- ==== Sys2Proof/Machine/Deliver.lean ====
section
/-! DEFINITION. Delivery of fabric packets (17): forwarding, the partition a packet reaches, duplicate windows, epochs,
the hold area, and the acknowledgement or refusal that goes back. -/

namespace Sys2Proof.Machine

/-! ### Answers (R543, R554) -/

/-- A packet back to the source of another. -/
def backTo (k : Pkt) (kind : Nat) : Pkt :=
  { pkt0 kind with
    dest := k.src, bySlot := k.bySlot, part := if k.bySlot then k.srcPart else 0,
    srcPart := if k.bySlot then k.part else 0 }

/-- The code of an E2E_ACK's REFUSED bit. -/
def ackRefused (k : Pkt) : Bool := bit k.addr 16

/-- An E2E_ACK for a packet: in the packet's class, with SEQ 0, never windowed (R536, R543, R554). -/
def ackFor (d : Dev) (k : Pkt) (refused : Bool) : Pkt :=
  { backTo k pkAck with
    src := if k.bySlot then d.eng.pwr.straps.slot else d.ownRank
    tc := d.classOf (trafficKind k.kind)
    hops := d.fld FAB_CFG_HOP_LIMIT
    incarnation := d.fld FAB_INCARNATION_VALUE
    addr := k.incarnation + bv refused * 65536
    arg := k.seq }

/-- Acknowledge a windowed packet. -/
def sendAck (k : Pkt) (refused : Bool) : Act := .dyn fun d =>
  Act.when (!d.eng.pwr.stopping) (fabRoute (ackFor d k refused))

/-- Refuse a packet: an E2E_ACK with REFUSED for a windowed one, an answer with only the tag for a request (R554). -/
def refusePkt (k : Pkt) : Act :=
  if windowed k.kind then sendAck k true
  else if k.kind = pkReadReq then fabSend { backTo k pkReadData with addr := k.addr, data := fit 8 k.data } 0
  else if k.kind = pkGatherReq then fabSend { backTo k pkGatherData with addr := k.addr, data := fit 8 k.data } 0
  else .skip

/-! ### Windows (R545, R546) -/

/-- The window of a packet's source at a partition. -/
def Dev.winOf (d : Dev) (p : Nat) (k : Pkt) : Option Window :=
  d.eng.fab.wins.find? fun w => w.part == p && w.bySlot == k.bySlot && w.src == k.src

def setWin (w : Window) : Act := .eng fun e => { e with fab := { e.fab with
    wins := w :: e.fab.wins.filter fun x => !(x.part == w.part && x.bySlot == w.bySlot && x.src == w.src) } }

/-- A window in which nothing has been accepted. -/
def emptyWin (p : Nat) (k : Pkt) : Window :=
  { part := p, bySlot := k.bySlot, src := k.src, incarnation := k.incarnation, high := 0, map := 0 }

/-- One incarnation is newer than another in half-range order. -/
def newerInc (a b : Nat) : Bool :=
  decide (0 < (a + 65536 - b % 65536) % 65536) && decide ((a + 65536 - b % 65536) % 65536 < 32768)

/-- SEQ lies in the map, or 1,024 or more below the highest one accepted. -/
def Window.isDup (w : Window) (seq : Nat) : Bool :=
  let back := (w.high + 2 ^ 32 - seq % 2 ^ 32) % 2 ^ 32
  w.map != 0 && decide (back < 2 ^ 31) && (decide (1024 ≤ back) || bit w.map back)

/-- Enter a SEQ in the window. -/
def Window.enter (w : Window) (seq : Nat) : Window :=
  let back := (w.high + 2 ^ 32 - seq % 2 ^ 32) % 2 ^ 32
  let ahead := (seq + 2 ^ 32 - w.high % 2 ^ 32) % 2 ^ 32
  if w.map = 0 then { w with high := seq, map := 1 }
  else if back < 2 ^ 31 then { w with map := w.map ||| 2 ^ (min back 1024) }
  else { w with high := seq, map := if 1024 ≤ ahead then 1 else (w.map * 2 ^ ahead + 1) % 2 ^ 1025 }

/-! ### The hold area (R542) -/

/-- Bytes of a packet in a port's hold area. -/
def holdSize (k : Pkt) : Nat := 32 + k.data.length

def Dev.holdUsed (d : Dev) (port : Nat) : Nat :=
  listSum ((d.eng.fab.hold.filter fun h => h.port == port).map fun h => holdSize h.pkt)

/-- Hold a packet until its epoch or attempt opens, or discard it where the area is full. -/
def holdPkt (port : Nat) (k : Pkt) : Act := .dyn fun d =>
  if 262144 < d.holdUsed port + holdSize k then Act.add FAB_COUNT_C_HOLD_DROPS 1
  else .eng fun e => { e with fab := { e.fab with hold := e.fab.hold ++ [{ port := port, pkt := k }] } }

/-! ### Acceptance -/

/-- What a packet does at its partition, under the epoch it writes into, and whether it is accepted (R553, R554). -/
abbrev Handler := (p : Nat) → (view : Option Nat) → (k : Pkt) → Dev → Act × Bool

/-- Carry a handler out: refused packets are answered so, windowed ones acknowledged. -/
def carry (h : Handler) (p : Nat) (view : Option Nat) (k : Pkt) : Act := .dyn fun d =>
  .seq (h p view k d).1
    (if (h p view k d).2 then Act.when (windowed k.kind) (sendAck k false) else refusePkt k)

/-- A packet beyond its window: by the epoch it carries it acts on committed memory or on a version, is held, or is
discarded (R462). -/
def byEpoch (port : Nat) (h : Handler) (p : Nat) (k : Pkt) (enter : Act) : Act := .dyn fun d =>
  match d.epochClass p k.epoch with
  | 0 => .seq enter (carry h p none k)
  | 1 => .seq enter (carry h p (some k.epoch) k)
  | 2 => holdPkt port k
  | 3 => .all [enter, Act.add (TRN_PROOF_DROP_STALE p) 1, Act.when (windowed k.kind) (sendAck k false)]
  | _ => .all [enter, Act.add (TRN_PROOF_DROP_STALE p) 1, refusePkt k]

/-- A windowed packet against the window of its source (R545, R546); a duplicate is acknowledged as the packet was. -/
def inWindow (h : Handler) (p : Nat) (k : Pkt) (go : Act → Act) : Act := .dyn fun d =>
  let w := (d.winOf p k).getD (emptyWin p k)
  if newerInc w.incarnation k.incarnation then Act.add FAB_COUNT_C_OLD_INCARNATION 1
  else
    let w := if w.incarnation = k.incarnation then w else emptyWin p k
    if w.isDup k.seq then
      .all [Act.add FAB_COUNT_B_DUPLICATES 1,
        let cl := d.epochClass p k.epoch
        sendAck k (cl == 4 || !(h p (if cl == 1 then some k.epoch else none) k d).2)]
    else .seq (setWin w) (go (setWin (w.enter k.seq)))

/-- Bit VERSION of a FILL_DATA payload (R554). -/
def fillVersion (k : Pkt) : Bool := bit (leAt k.data 8 1) 0

/-- The packet as R462 looks at it: reduction packets carry no epoch (R500), committed fill content neither (R596). -/
def epochOf (k : Pkt) : Pkt :=
  if k.kind = pkReduce || k.kind = pkReduceAnswer || (k.kind = pkFillData && !fillVersion k) then { k with epoch := 0 }
  else k

/-- A packet that its partition takes. -/
def accept (port : Nat) (h : Handler) (p : Nat) (k0 : Pkt) : Act :=
  let k := epochOf k0
  if windowed k.kind then inWindow h p k fun enter => byEpoch port h p k enter
  else byEpoch port h p k .skip

/-- A packet for another rank (R538, R539). -/
def forward (k : Pkt) : Act := .dyn fun d =>
  let k' := { k with hops := k.hops - 1 }
  match k.hops, d.choosePort k' with
  | 0, _ => Act.add FAB_COUNT_A_HOP_DROPS 1
  | _, none => Act.add FAB_COUNT_A_HOP_DROPS 1
  | _, some j => .seq (Act.add FAB_COUNT_A_FORWARDED 1) (portSend j k')

/-- The partition a packet reaches is under reset (R567). -/
def Dev.underReset (d : Dev) (p : Nat) : Bool := bit (d.fld PWR_RESET_BUSY_PARTS) p

/-- An answer to this device's own packet: R537 asks nothing of it. -/
def isAnswer (kind : Nat) : Bool := kind == pkAck || kind == pkReadData || kind == pkGatherData || kind == pkReduceAnswer

/-- A packet arrives: at port 32 one that this device sent to its own rank, at another port one from the peer; each goes
where R537 to R539 send it. Lines that it reads and the host holds come back first. -/
def arrive (port : Nat) (k : Pkt) (reads : (p : Nat) → List (Nat × Nat × Nat)) (go : (p : Nat) → Act) : Act := .dyn fun d =>
  if port = 32 then
    if d.eng.fab.own.contains k then
      afterSnoop (reads k.part) <|
      .seq (.eng fun e => { e with fab := { e.fab with own := e.fab.own.erase k } })
        (Act.when (!d.underReset k.part) (go k.part))
    else .skip
  else if 32 < port || !d.portUp port then .skip
  else if k.bySlot then
    let own := d.eng.pwr.straps.slot
    if port < 4 || own ^^^ (port / 4) != k.src || k.dest != own then .skip
    else if d.underReset k.part then .skip
    else if isAnswer k.kind || (k.part == k.srcPart && d.slotAccept k.part) then afterSnoop (reads k.part) (go k.part)
    else refusePkt k
  else if d.hasRanks && k.dest == d.ownRank then
    match d.rankPart with
    | some p => Act.when (!d.underReset p) (afterSnoop (reads p) (go p))
    | none => .skip
  else forward k

/-- A packet of a kind arrives. -/
def arrival (kind port : Nat) (k0 : Pkt) (h : Handler) : Act :=
  let k := { k0 with kind := kind }
  arrive port k (fun _ => []) fun p => accept port h p k

/-- A packet of a kind that reads or changes a range of memory arrives. -/
def arrivalAt (kind port : Nat) (k0 : Pkt) (o n : Nat) (h : Handler) : Act :=
  let k := { k0 with kind := kind }
  arrive port k (fun p => [(p, o, n)]) fun p => accept port h p k

end Sys2Proof.Machine
end

