-- ==== Sys2Proof/Machine/Remote.lean ====
section
/-! DEFINITION. Remote operations over the fabric (17, 18): FABRIC_SEND tasks, the packets they become, mirrors and fill
data at the receiver, and delivery end to end at the source. -/

namespace Sys2Proof.Machine

/-! ### Packets that write memory -/

/-- The granules of a range without a version of the epoch, where the version pool has no room for a copy of each
(R456); frozen copies make way first (R489). -/
def Dev.noVersion (d : Dev) (p : Nat) (view : Option Nat) (o n : Nat) : Bool :=
  match view with
  | none => false
  | some e =>
    let gs := (if n = 0 then [] else List.range ((o + n - 1) / 4096 - o / 4096 + 1)).filterMap fun i =>
      let g := o / 4096 + i
      if (d.version p (some e) g).isSome || d.chanFenced (d.chanOf p (g * 4096)) then none else some g
    gs.any fun g =>
      let c := d.chanOf p (g * 4096)
      decide (poolVersion d.eng.cfg.base < d.proofOn c + (gs.filter fun x => d.chanOf p (x * 4096) == c).length)

/-- A packet that writes n bytes at an offset: refused outside the partition or where a version has no room (R456,
R553). -/
def writing (p : Nat) (view : Option Nat) (o n : Nat) (d : Dev) (ok : Bool) (a : Act) : Act × Bool :=
  if !ok || !d.inMemory p o n then (.skip, false)
  else if d.noVersion p view o n then (Act.add (TRN_PROOF_VERSION_FULL p) 1, false)
  else (a, true)

/-- WRITE (R552, R673). -/
def takeWrite : Handler := fun p view k d =>
  writing p view k.addr k.data.length d (decide (k.data.length ≤ 4096)) (memWrite p view k.addr k.data k.poison 0)

def actWrite (port : Nat) (k : Pkt) : Act := arrival pkWrite port k takeWrite

/-- Element-wise sums modulo 2^(8 w) (R552). -/
def addElems (w : Nat) (a b : List Byte) : List Byte :=
  ((List.range (a.length / w)).map fun i => leBytes w (leAt a (i * w) w + leAt b (i * w) w)).flatten

/-- ACCUMULATE: the elements are added at the home; a poisoned packet poisons the lines and adds nothing, and a poisoned
line stays so (R163, R552, R673). -/
def takeAccumulate : Handler := fun p view k d =>
  let w := if bit k.arg 0 then 8 else 4
  let n := k.data.length
  let old := d.viewBytes p view k.addr n
  let new := if k.poison then old else addElems w old k.data
  writing p view k.addr n d (decide (n ≤ 4096) && k.addr % w == 0 && n % w == 0)
    (Act.each (pieces (n / 64 + 2) k.addr new) fun x =>
      lineWrite p view x.1 x.2 (k.poison || d.linePoison p view x.1) 0)

def actAccumulate (port : Nat) (k : Pkt) : Act :=
  arrivalAt pkAccumulate port k k.addr k.data.length takeAccumulate

/-- The lines of a MIRROR or FILL_DATA packet by number in the granule, with their bytes. -/
def maskedLines (mask : Nat) (bs : List Byte) : List (Nat × List Byte) :=
  let ls := upTo 64 (bit mask)
  (List.range ls.length).map fun i => (ls.getD i 0, (bs.drop (64 * i)).take 64)

/-- Its payload holds 64 bytes for each set line. -/
def maskFits (k : Pkt) : Bool := k.addr % 4096 == 0 && k.data.length == 16 + 64 * popBits (leAt k.data 0 8) 64

/-- MIRROR: applied as a fabric write, not mirrored further (R589). -/
def takeMirror : Handler := fun p view k d =>
  writing p view k.addr 4096 d (maskFits k)
    (Act.each (maskedLines (leAt k.data 0 8) (k.data.drop 16)) fun x =>
      lineWriteFrom .live p view (k.addr + x.1 * 64) x.2 k.poison 0)

def actMirror (port : Nat) (k : Pkt) : Act := arrival pkMirror port k takeMirror

/-- FILL_DATA: committed content and content of a committed epoch go to the lines that are not fresh, content of an open
epoch to those its version here has not written (R596). -/
def takeFillData : Handler := fun p view k d =>
  let g := k.addr / 4096
  let done := match view with
    | some _ => ((d.version p view g).map Version.mask).getD 0
    | none => Store.get zeroNat g d.eng.dune.fresh
  writing p view k.addr 4096 d (maskFits k)
    (Act.each ((maskedLines (leAt k.data 0 8) (k.data.drop 16)).filter fun x => !bit done x.1) fun x =>
      lineWriteFrom .fill p view (k.addr + x.1 * 64) x.2 k.poison 0)

def actFillData (port : Nat) (k : Pkt) : Act := arrival pkFillData port k takeFillData

/-! ### Packets that reach tallies and queues -/

/-- REMOTE_INCREMENT: the ADD of R198; an epoch does not version tallies (R200, R457, R552). -/
def takeTallyAdd : Handler := fun p _ k d =>
  match d.relTally p k.addr with
  | some t => (tallyAdd t k.arg, true)
  | none => (.skip, false)

def actRemoteIncrement (port : Nat) (k : Pkt) : Act := arrival pkTallyAdd port k takeTallyAdd

/-- REMOTE_DOORBELL (R177, R552). -/
def takeDoorbell : Handler := fun p _ k d =>
  if d.formed p && decide (k.addr < queueCount d.eng.cfg.base p) then
    (doorbell (firstQueue d.eng.cfg.base p + k.addr) (k.arg % 65536), true)
  else (.skip, false)

def actRemoteDoorbell (port : Nat) (k : Pkt) : Act := arrival pkDoorbell port k takeDoorbell

/-! ### Reads -/

/-- READ_REQ: answered with the data, poisoned where a line is (R554, R673), or refused. -/
def takeReadReq (ecc : Ecc) : Handler := fun p view k d =>
  let n := k.arg
  if n = 0 || 4096 < n || !d.inMemory p k.addr n then (.skip, false)
  else
    let answer : Act := .dyn fun d => .seq (countRead p k.addr n)
      (fabSend { backTo k pkReadData with
        addr := k.addr, arg := n, poison := d.poisoned p view k.addr n,
        data := fit 8 k.data ++ d.viewBytes p view k.addr n } 0)
    (match ecc with
      | .uncorrectable => .seq (ueDune p k.addr 0) answer
      | e => withEcc e p k.addr 0 answer, true)

def actReadReq (port : Nat) (k : Pkt) (ecc : Ecc) : Act :=
  arrivalAt pkReadReq port k k.addr k.arg (takeReadReq ecc)

def updFab (f : Fab → Fab) : Act := .eng fun e => { e with fab := f e.fab }

/-- READ_DATA: the first answer writes the local destination, a refusal ends the task with RANGE (R548, R553). -/
def takeReadData : Handler := fun _ _ k d =>
  match d.eng.fab.reqs.find? fun r => r.tag == leAt k.data 0 8 && !r.gather && r.pkt.dest == k.src with
  | none => (.skip, true)
  | some r =>
    (.all [updFab fun f => { f with reqs := f.reqs.filter fun x => x.tag != r.tag },
      if k.arg = 0 then endTask r.task stRange 0
      else memWrite r.part (d.taskView r.task) r.dst ((k.data.drop 8).take r.pkt.arg) k.poison r.task], true)

def actReadData (port : Nat) (k : Pkt) : Act := arrival pkReadData port k takeReadData

/-! ### FABRIC_SEND tasks (R551 to R553) -/

def sOp (b : List Byte) : Nat := field (dArg b 0) 0 8
def sBySlot (b : List Byte) : Bool := bit (dArg b 0) 8
def sDest (b : List Byte) : Nat := field (dArg b 0) 16 16
def sPart (b : List Byte) : Nat := if sBySlot b then field (dArg b 0) 32 6 else 0

/-- A packet of a FABRIC_SEND task, with the job-wide epoch of the task for the kinds that carry one: writes, accumulates and
increments join it, and a read sees its version (R451, R460, R462). -/
def sendPkt (d : Dev) (t : Task) (kind addr arg : Nat) (data : List Byte) (poison : Bool) : Pkt :=
  { pkt0 kind with
    dest := sDest t.desc, bySlot := sBySlot t.desc, part := sPart t.desc,
    srcPart := if sBySlot t.desc then t.part else 0,
    epoch := match d.taskView t.id with
      | some e => if jobWide e && (kind == pkWrite || kind == pkReadReq || kind == pkAccumulate || kind == pkTallyAdd) then e else 0
      | none => 0
    addr := addr, arg := arg, data := data, poison := poison }

/-- The destination rank is in the drop set of the current attempt (R553). -/
def Dev.peerDropped (d : Dev) (b : List Byte) : Bool := !sBySlot b && d.eng.red.drop.contains (sDest b)

/-- A transfer as packets of at most 4,096 bytes: offset within it and length. -/
def chunks (n : Nat) : List (Nat × Nat) :=
  (List.range (ceilDiv n 4096)).map fun i => (i * 4096, min 4096 (n - i * 4096))

/-- The checks of a task before it sends: the drop set, the alignment of an accumulate, a local epoch of a write, the local
range (R461, R552, R553). -/
def sendChecked (t : Task) (writes : Bool) (elem : Nat) (k : Dev → Act) : Act := .dyn fun d =>
  let b := t.desc
  if d.peerDropped b then endTask t.id stFault fkPeerDropped
  else if elem != 0 && (dArg b 1 % elem != 0 || dArg b 2 % elem != 0 || dArg b 3 % elem != 0) then
    endTask t.id stFault fkMisaligned
  else if writes && ((d.taskView t.id).any fun e => !jobWide e) then endTask t.id stFault fkProofRole
  else if sOp b ≤ 3 && !d.inMemory t.part (dArg b 1) (dArg b 3) then endTask t.id stFault fkMemRange
  else .seq (k d) (taskEnds t.id stOk)

/-- Send local data in packets of a kind. -/
def sendData (t : Task) (kind arg elem : Nat) : Act :=
  sendChecked t true elem fun d =>
    let b := t.desc
    let view := d.taskView t.id
    .seq (countRead t.part (dArg b 1) (dArg b 3)) <|
    Act.each (chunks (dArg b 3)) fun c =>
      let src := dArg b 1 + c.1
      fabSend (sendPkt d t kind (dArg b 2 + c.1) arg (d.viewBytes t.part view src c.2)
        (d.poisoned t.part view src c.2)) t.id

/-- Issue a request with a tag of its own and note it until its answer (R548, R554). -/
def fabRequest (k : Pkt) (task part dst : Nat) (gather : Bool) : Act := .dyn fun d =>
  let tag := d.eng.fab.nextTag
  let k := { k with data := leBytes 8 tag }
  .all [updFab fun f => { f with
      nextTag := (tag + 1) % 2 ^ 64
      reqs := f.reqs ++ [{ tag := tag, pkt := k, port := d.choosePort k, resends := 0, task := task, part := part,
                           dst := dst, gather := gather }] },
    fabSend k 0]

/-- Request remote data, 4,096 bytes at a time. -/
def sendRead (t : Task) : Act :=
  sendChecked t false 0 fun d =>
    Act.each (chunks (dArg t.desc 3)) fun c =>
      fabRequest (sendPkt d t pkReadReq (dArg t.desc 2 + c.1) c.2 [] false) t.id t.part (dArg t.desc 1 + c.1) false

/-- The local memory that a WRITE or ACCUMULATE reads. -/
def sendReads (_ : Dev) (t : Task) : List (Nat × Nat × Nat) := [(t.part, dArg t.desc 1, dArg t.desc 3)]

def wantSend (op : Nat) (b : List Byte) : Bool := dKind b == kdSend && sOp b == op

/-- SEND_WRITE; a descriptor with an unknown OP is turned down with it (R187). -/
def actSendWrite (q : Nat) (bs : List Byte) : Act :=
  dispatch q bs (fun b => dKind b == kdSend && !([2, 3, 4, 5].contains (sOp b))) sendReads fun t => sendData t pkWrite 0 0

/-- SEND_READ. -/
def actSendRead (q : Nat) (bs : List Byte) : Act := dispatch q bs (wantSend 2) (fun _ _ => []) sendRead

/-- SEND_ACCUMULATE. -/
def actSendAccumulate (q : Nat) (bs : List Byte) : Act :=
  dispatch q bs (wantSend 3) sendReads fun t =>
    let wide := dArg t.desc 4 % 2
    sendData t pkAccumulate wide (if wide = 1 then 8 else 4)

/-- SEND_TALLY_ADD. -/
def actSendTallyAdd (q : Nat) (bs : List Byte) : Act :=
  dispatch q bs (wantSend 4) (fun _ _ => []) fun t => sendChecked t false 0 fun d =>
    fabSend (sendPkt d t pkTallyAdd (dArg t.desc 2 % 65536) (dArg t.desc 3) [] false) t.id

/-- SEND_DOORBELL. -/
def actSendDoorbell (q : Nat) (bs : List Byte) : Act :=
  dispatch q bs (wantSend 5) (fun _ _ => []) fun t => sendChecked t false 0 fun d =>
    fabSend (sendPkt d t pkDoorbell (dArg t.desc 2 % 2 ^ 18) (dArg t.desc 3 % 65536) [] false) t.id

/-! ### End to end at the source (R543, R544, R547) -/

/-- The next packet that waits for a place among the 1,024 to one destination leaves. -/
def unblock (bySlot : Bool) (dest : Nat) : Act := .dyn fun d =>
  match d.eng.fab.blocked.find? fun x => x.1.bySlot == bySlot && x.1.dest == dest with
  | some x => .seq (updFab fun f => { f with blocked := f.blocked.erase x }) (fabSend x.1 x.2)
  | none => .skip

/-- A MIRROR packet is acknowledged: its lines count as accepted, and those written since go (R589, R590). -/
def mirrorAcked (k : Pkt) : Act := .dyn fun d =>
  match d.eng.dune.mirrors.find? fun m =>
      m.sent != 0 && m.dest == k.dest && m.epoch == k.epoch && d.mirrorAddr m.gran * 4096 == k.addr with
  | none => .skip
  | some m =>
    .all [.eng fun e => { e with dune := { e.dune with
        mirrors := e.dune.mirrors.filterMap fun x =>
          if x == m then (if m.next = 0 then none else some { x with sent := 0, tasks := [] }) else some x } },
      mirrorPump (d.rankPart.getD 0) m.gran (d.mirrorAddr m.gran) m.dest]

/-- E2E_ACK: the packet is released; a refusal completes its FABRIC_SEND with RANGE (R543, R553). -/
def takeAck : Handler := fun _ _ k d =>
  match d.eng.fab.e2e.find? fun x => x.pkt.bySlot == k.bySlot && x.pkt.dest == k.src && x.pkt.seq == k.arg &&
      x.pkt.incarnation == k.addr % 65536 with
  | none => (.skip, true)
  | some x =>
    (.all [updFab fun f => { f with e2e := f.e2e.erase x, unrouted := f.unrouted.erase x.pkt },
      Act.when (ackRefused k) (endTask x.task stRange 0),
      Act.when (x.pkt.kind == pkMirror || x.pkt.kind == pkFillData)
        (.eng fun e => { e with resil := { e.resil with spareInc := k.incarnation } }),
      Act.when (x.pkt.kind == pkMirror) (mirrorAcked x.pkt),
      unblock x.pkt.bySlot x.pkt.dest], true)

def actE2eAck (port : Nat) (k : Pkt) : Act := arrival pkAck port k takeAck

/-- UNREACHABLE, naming the destination rank (R547, R577); a BY_SLOT packet names none. -/
def unreachable (k : Pkt) (part : Nat) : Act :=
  report fkUnreachable part 0 (leBytes 2 (if k.bySlot then 0xFFFF else k.dest))

/-- Send a packet that has left before once more, over the port that R538 now chooses. -/
def resendPkt (k : Pkt) : Act :=
  .all [updFab fun f => { f with unrouted := f.unrouted.erase k }, Act.add FAB_COUNT_B_RESENDS 1,
    .dyn fun d => Act.when (!d.eng.pwr.stopping) (fabRoute k)]

/-- Resend a windowed packet. -/
def resendE2e (x : E2E) : Act := .dyn fun d =>
  .all [updFab fun f => { f with e2e := f.e2e.map fun y =>
      if y == x then { y with resends := y.resends + 1, port := d.choosePort x.pkt } else y },
    resendPkt x.pkt,
    Act.when (x.resends + 1 == d.fld FAB_E2E_LIMIT) (unreachable x.pkt ((d.idPart x.task).getD (d.rankPart.getD 0xFF)))]

/-- Resend a read or gather request. -/
def resendReq (x : FabReq) : Act := .dyn fun d =>
  let k := { x.pkt with
    src := if x.pkt.bySlot then d.eng.pwr.straps.slot else d.ownRank
    tc := d.classOf (trafficKind x.pkt.kind)
    hops := d.fld FAB_CFG_HOP_LIMIT
    incarnation := d.fld FAB_INCARNATION_VALUE }
  .all [updFab fun f => { f with reqs := f.reqs.map fun y =>
      if y.tag == x.tag then { y with resends := y.resends + 1, port := d.choosePort x.pkt } else y },
    resendPkt k,
    Act.when (x.resends + 1 == d.fld FAB_E2E_LIMIT) (unreachable x.pkt x.part)]

/-- E2E_RESEND: of the windowed packet with a SEQ to a destination, or of the request with a tag (R547, R548). -/
def actE2eResend (request bySlot : Bool) (dest key : Nat) : Act := .dyn fun d =>
  if request then
    match d.eng.fab.reqs.find? fun r => r.tag == key with
    | some r => resendReq r
    | none => .skip
  else match d.eng.fab.e2e.find? fun x => x.pkt.bySlot == bySlot && x.pkt.dest == dest && x.pkt.seq == key with
    | some x => resendE2e x
    | none => .skip

/-! ### Commands -/

def execWrite (port : Nat) (k : Pkt) (s : State) : Host.Outcome State Fault Refusal := cmd (actWrite port k) s
def execAccumulate (port : Nat) (k : Pkt) (s : State) : Host.Outcome State Fault Refusal := cmd (actAccumulate port k) s
def execMirror (port : Nat) (k : Pkt) (s : State) : Host.Outcome State Fault Refusal := cmd (actMirror port k) s
def execFillData (port : Nat) (k : Pkt) (s : State) : Host.Outcome State Fault Refusal := cmd (actFillData port k) s
def execRemoteIncrement (port : Nat) (k : Pkt) (s : State) : Host.Outcome State Fault Refusal :=
  cmd (actRemoteIncrement port k) s
def execRemoteDoorbell (port : Nat) (k : Pkt) (s : State) : Host.Outcome State Fault Refusal :=
  cmd (actRemoteDoorbell port k) s
def execReadReq (port : Nat) (k : Pkt) (ecc : Ecc) (s : State) : Host.Outcome State Fault Refusal :=
  cmd (actReadReq port k ecc) s
def execReadData (port : Nat) (k : Pkt) (s : State) : Host.Outcome State Fault Refusal := cmd (actReadData port k) s
def execSendWrite (q : Nat) (bs : List Byte) (s : State) : Host.Outcome State Fault Refusal := cmd (actSendWrite q bs) s
def execSendRead (q : Nat) (bs : List Byte) (s : State) : Host.Outcome State Fault Refusal := cmd (actSendRead q bs) s
def execSendAccumulate (q : Nat) (bs : List Byte) (s : State) : Host.Outcome State Fault Refusal :=
  cmd (actSendAccumulate q bs) s
def execSendTallyAdd (q : Nat) (bs : List Byte) (s : State) : Host.Outcome State Fault Refusal :=
  cmd (actSendTallyAdd q bs) s
def execSendDoorbell (q : Nat) (bs : List Byte) (s : State) : Host.Outcome State Fault Refusal :=
  cmd (actSendDoorbell q bs) s
def execE2eAck (port : Nat) (k : Pkt) (s : State) : Host.Outcome State Fault Refusal := cmd (actE2eAck port k) s
def execE2eResend (request bySlot : Bool) (dest key : Nat) (s : State) : Host.Outcome State Fault Refusal :=
  cmd (actE2eResend request bySlot dest key) s

end Sys2Proof.Machine
end

