-- ==== Sys2Proof/Machine/Gather.lean ====
section
/-! DEFINITION. Parameter gathers (13): PGATHER, its admission and its end, and the gather packets at both ends. -/

namespace Sys2Proof.Machine

/-- How many ranks share the tiles of a partition: RANK_COUNT, or 1 where it holds no rank (R429). -/
def Dev.shardRanks (d : Dev) (p : Nat) : Nat := if d.holdsRank p then max 1 d.rankCount else 1

/-- The partition offset of a shard slot (R429, R588). -/
def Dev.slotOffset (d : Dev) (p slot : Nat) : Nat := d.fld (TRN_SHARD_BASE_BASE p) * 4096 + slot * 4096

/-- The release count of a direction (R434). -/
def relField (p dir : Nat) : Fld := if dir = 0 then TRN_GATHER_REL_FWD p else TRN_GATHER_REL_BWD p

/-- A gather's position is within PREFETCH_LAYERS of the release count. -/
def Dev.gatherAdmitted (d : Dev) (p : Nat) (g : Gather) : Bool :=
  decide ((g.pos + 65536 - d.fld (relField p g.dir)) % 65536 ≤ d.prefetchLayers p)

def updGather (n id : Nat) (f : Gather → Gather) : Act := updQuire n fun q =>
  { q with gathers := q.gathers.map fun g => if g.id == id then f g else g }

/-- The tiles of a gather with their destinations. -/
def Gather.list (g : Gather) : List (Nat × Nat) :=
  (List.range g.tiles).map fun i => (g.first + i, g.dst + i * 4096)

/-- A tile of the partition's own rank. -/
def Dev.ownTile (d : Dev) (p t : Nat) : Bool :=
  !d.holdsRank p || t % d.shardRanks p == d.ownRank

/-- Where a tile of the own rank lies. -/
def Dev.ownTileAt (d : Dev) (p t : Nat) : Nat := d.slotOffset p (t / d.shardRanks p)

/-- The rank that serves another rank's tile: its owner, or the owner's partner while the owner is dropped (R553). -/
def Dev.tileServer (d : Dev) (p t : Nat) : Nat :=
  let o := t % d.shardRanks p
  if d.eng.red.drop.contains o then rankPartner d.ranks o else o

/-- The gathers that R434 holds now: not started, and beyond what the release count admits. -/
def Dev.gathersHeld (d : Dev) (p : Nat) (q : Quire) : List Gather := q.gathers.filter fun g => !g.started && !d.gatherAdmitted p g

/-- One tile of a running gather: read locally, as a demand access whose line the ECC finds as told, or asked of its owner
(R432, R433, R436). -/
def gatherTile (p id t dst : Nat) (ecc : Ecc) : Act := .dyn fun d =>
  let view := d.taskView id
  if d.ownTile p t then
    let o := d.ownTileAt p t
    if !d.inMemory p o 4096 then endTask id stFault fkMemRange
    else if d.poisoned p view o 4096 then .seq (countRead p o 4096) (endTask id stFault fkPoison)
    else withEcc ecc p o id (.all [countRead p o 4096, memWrite p view dst (d.viewBytes p view o 4096) false id,
      Act.add (TRN_GATHER_COUNT_TILES p) 1])
  else
    fabRequest { pkt0 pkGatherReq with
      dest := d.tileServer p t
      epoch := match view with
        | some e => if jobWide e then e else 0
        | none => 0
      addr := t } id p dst true

/-- Start a gather whose position is admitted (R434). `ecc` is what the home finds in the first line of the first tile of the
own rank. -/
def startGather (n id : Nat) (ecc : Ecc) : Act := .dyn fun d =>
  match (d.quire n).gathers.find? fun g => g.id == id && !g.started with
  | none => .skip
  | some g =>
    match d.task g.task with
    | none => .skip
    | some t =>
      let p := t.part
      if !d.gatherAdmitted p g then .skip
      else
        let own := g.list.filter fun x => d.ownTile p x.1
        afterSnoop (own.map fun x => (p, d.ownTileAt p x.1, 4096))
          (.seq (updGather n id fun g => { g with started := true })
            (Act.each g.list fun x => gatherTile p id x.1 x.2 (if own.head? = some x then ecc else .clean)))

/-- PGATHER (R431 to R436). -/
def actPgather (sel : Sel) (w : LongW) (ecc : Ecc) : Act :=
  issueLong sel 11 0x01 w fun x =>
    withDesc x 16 fun v => .dyn fun d =>
      let p := x.task.part
      let first := field v 0 32
      let tiles := field v 32 16
      let dst := field v 64 40 * 4096
      let release := bit v 105
      if field v 106 22 != 0 || (tiles == 0 && !release) || (tiles != 0 && release) then x.fault fkIllegal
      else if release then Act.add (relField p (field v 104 1)) 1
      else if d.fld (TRN_SHARD_SLOTS_SLOTS p) * d.shardRanks p < first + tiles || !d.inMemory p dst (tiles * 4096) then
        x.fault fkMemRange
      else newId x.task.id fun id => .seq
        (updQuire x.n fun q => { q with gathers := q.gathers ++
          [{ id := id, task := x.task.id, gath := x.g.num, slot := x.slot, counter := field w.ext 0 5, first := first,
             tiles := tiles, pos := field v 48 16, dst := dst, dir := field v 104 1, started := false }] })
        (startGather x.n id ecc)

/-- PGATHER_ADMIT (R434). -/
def actPgatherAdmit (n id : Nat) (ecc : Ecc) : Act := startGather n id ecc

/-- PGATHER_DONE: every tile is accepted; the arrival counter takes its update (R432). -/
def actPgatherDone (n id : Nat) : Act := .dyn fun d =>
  match (d.quire n).gathers.find? fun g => g.id == id with
  | none => .skip
  | some g =>
    if !g.started || d.busy id then .skip
    else .seq (updQuire n fun q => { q with gathers := q.gathers.filter fun g => g.id != id })
      (updQuire n fun q => q.arrive g.counter 1)

/-- The slot in which this device serves a tile: as its owner, or as the owner's partner (R436, R588). -/
def Dev.servedSlot (d : Dev) (p t : Nat) : Option Nat :=
  let n := d.shardRanks p
  if d.ownTile p t then some (t / n)
  else if rankPartner d.ranks (t % n) == d.ownRank then some (d.fld (TRN_SHARD_SLOTS_SLOTS p) + t / n)
  else none

/-- The range that a GATHER_REQ reads. -/
def Dev.servedAt (d : Dev) (p t : Nat) : Option Nat :=
  match d.servedSlot p t with
  | some s => if d.inMemory p (d.slotOffset p s) 4096 then some (d.slotOffset p s) else none
  | none => none

/-- GATHER_REQ: answered with the tile of the version asked for, or refused (R433, R436, R554). -/
def takeGatherReq (ecc : Ecc) : Handler := fun p view k d =>
  match d.servedAt p k.addr with
  | none => (.skip, false)
  | some o =>
    let answer : Act := .dyn fun d => .seq (countRead p o 4096)
      (fabSend { backTo k pkGatherData with
        addr := k.addr, poison := d.poisoned p view o 4096, data := fit 8 k.data ++ d.viewBytes p view o 4096 } 0)
    (match ecc with
      | .uncorrectable => .seq (ueDune p o 0) answer
      | e => withEcc e p o 0 answer, true)

def actGatherReq (port : Nat) (k0 : Pkt) (ecc : Ecc) : Act := .dyn fun d =>
  let k := { k0 with kind := pkGatherReq }
  arrive port k (fun p => match d.servedAt p k.addr with
    | some o => [(p, o, 4096)]
    | none => []) fun p => accept port (takeGatherReq ecc) p k

/-- GATHER_DATA: the first answer to a request; a tag alone is a refusal, poison ends the task (R432, R436, R548). -/
def takeGatherData : Handler := fun _ _ k d =>
  match d.eng.fab.reqs.find? fun r => r.tag == leAt k.data 0 8 && r.gather && r.pkt.dest == k.src with
  | none => (.skip, true)
  | some r =>
    (.all [updFab fun f => { f with reqs := f.reqs.filter fun x => x.tag != r.tag },
      if !(d.eng.quires.any fun kv => kv.2.gathers.any fun g => g.id == r.task) then .skip
      else if k.data.length ≤ 8 then endTask r.task stFault fkMemRange
      else if k.poison then endTask r.task stFault fkPoison
      else .seq (memWrite r.part (d.taskView r.task) r.dst ((k.data.drop 8).take 4096) false r.task)
        (Act.add (TRN_GATHER_COUNT_TILES r.part) 1)], true)

def actGatherData (port : Nat) (k : Pkt) : Act := arrival pkGatherData port k takeGatherData

/-! ### Commands -/

def execPgather (sel : Sel) (g : GatherWord) (s : State) : Host.Outcome State Fault Refusal :=
  cmd (actPgather sel g.w g.ecc) s
def execPgatherAdmit (n : Nat) (g : GatherRead) (s : State) : Host.Outcome State Fault Refusal :=
  cmd (actPgatherAdmit n g.id g.ecc) s
def execPgatherDone (n id : Nat) (s : State) : Host.Outcome State Fault Refusal := cmd (actPgatherDone n id) s
def execGatherReq (port : Nat) (k : Pkt) (ecc : Ecc) (s : State) : Host.Outcome State Fault Refusal :=
  cmd (actGatherReq port k ecc) s
def execGatherData (port : Nat) (k : Pkt) (s : State) : Host.Outcome State Fault Refusal := cmd (actGatherData port k) s

end Sys2Proof.Machine
end

