-- ==== Sys2Proof/Machine/Reduce.lean ====
section
/-! DEFINITION. Gradient reduction (16): sending a tile, the exact checksum, leaves and trees at the owner, answers and
reports. -/

namespace Sys2Proof.Machine

/-! ### The exact checksum and the combination (R501, R502) -/

/-- Element e of 4,096 data bytes. -/
def redElem (bs : List Byte) (e : Nat) : Val := bf16.decode (leAt bs (2 * e) 2)

/-- A finite value in units of 2^-133. -/
def redUnits : Val → Int
  | .fin n m e => (if n then -1 else 1) * (m * 2 ^ (e + 133).toNat : Nat)
  | _ => 0

def intSum (l : List Int) : Int := l.foldl (· + ·) 0

/-- The exact checksum: the sum of the finite elements in units of 2^-133, in 320 bits. -/
def checksum (bs : List Byte) : Nat := (intSum ((List.range 2048).map fun e => redUnits (redElem bs e)) % 2 ^ 320).toNat

/-- The elements that are infinite or NaN. -/
def nfCount (bs : List Byte) : Nat := (upTo 2048 fun e => (redElem bs e).nonfinite).length

/-- A tile with what its header says of it. -/
structure RedTile where
  data : List Byte
  sum : Nat
  nf : Nat
  samples : Nat
  deriving DecidableEq, Repr

/-- One element of a combination: rounded to FP32, then to BF16, nearest even (R502). -/
def combineElem (x y : Val) : Nat := bf16.round 0 0 (r32 (x.add y))

/-- The residual of an element: the exact sum of its finite inputs, less the output when that is finite. -/
def residual (x y : Val) (o : Nat) : Int := redUnits x + redUnits y - redUnits (bf16.decode o)

/-- Two tiles combined, where the check passes (R502, R503). -/
def combine (x y : RedTile) : Option RedTile :=
  let outs := (List.range 2048).map fun e => combineElem (redElem x.data e) (redElem y.data e)
  let data := (outs.map fun o => leBytes 2 o).flatten
  let res := intSum ((List.range 2048).map fun e => residual (redElem x.data e) (redElem y.data e) (outs.getD e 0))
  let cs := checksum data
  if ((cs : Int) + res - x.sum - y.sum) % 2 ^ 320 = 0 then
    some ⟨data, cs, nfCount data, (x.samples + y.samples) % 2 ^ 32⟩
  else none

/-! ### Headers (R498) -/

/-- The 64-byte header of a packet, a leaf or a root. -/
def redHeader (step attempt rank tile mb nf samples tally sum : Nat) : List Byte :=
  leBytes 4 step ++ leBytes 2 attempt ++ leBytes 2 rank ++ leBytes 4 tile ++ leBytes 2 mb ++ leBytes 2 nf ++
  leBytes 4 samples ++ leBytes 2 tally ++ [0, 0] ++ leBytes 40 sum

def rhStep (h : List Byte) : Nat := leAt h 0 4
def rhAttempt (h : List Byte) : Nat := leAt h 4 2
def rhRank (h : List Byte) : Nat := leAt h 6 2
def rhTile (h : List Byte) : Nat := leAt h 8 4
def rhMb (h : List Byte) : Nat := leAt h 12 2
def rhNf (h : List Byte) : Nat := leAt h 14 2
def rhSamples (h : List Byte) : Nat := leAt h 16 4
def rhTally (h : List Byte) : Nat := leAt h 20 2
def rhSum (h : List Byte) : Nat := leAt h 24 40

/-- One tag is older than another. -/
def tagOlder (a b : Nat × Nat) : Bool := decide (a.1 < b.1) || (a.1 == b.1 && decide (a.2 < b.2))

/-- The current (STEP, ATTEMPT) of a partition. -/
def Dev.tag (d : Dev) (p : Nat) : Nat × Nat := (d.fld (TRN_STEP_STEP p), d.fld (TRN_STEP_ATTEMPT p))

/-! ### Owners and areas (R499, R504, R509) -/

def updRed (f : Red → Red) : Act := .eng fun e => { e with red := f e.red }

/-- The rank under which a partition sends (R497). -/
def Dev.redRank (d : Dev) (p : Nat) : Nat := if d.holdsRank p then d.ownRank else 0

/-- The drop set as a partition sees it. -/
def Dev.dropSet (d : Dev) (p : Nat) : List Nat := if d.holdsRank p then d.eng.red.drop else []

/-- The owner of a tile in the current attempt. -/
def Dev.redOwner (d : Dev) (p t : Nat) : Nat := if d.holdsRank p then d.tileServer p t else 0

/-- The slot of a tile this device owns. -/
def Dev.redSlot (d : Dev) (p t : Nat) : Nat :=
  let n := d.shardRanks p
  if d.ownTile p t then t / n else d.fld (TRN_SHARD_SLOTS_SLOTS p) + t / n

/-- The padded leaf count: the smallest power of two not below n (R504). -/
def padded (n : Nat) : Nat := ((List.range 17).map fun i => 2 ^ i).find? (fun x => decide (n ≤ x)) |>.getD 65536

def Dev.leafAtSlot (d : Dev) (p slot j : Nat) : Nat :=
  d.fld (RED_LEAF_BASE_BASE p) * 4096 + (slot * padded (d.shardRanks p) + j) * 4096
def Dev.leafHeadAt (d : Dev) (p slot j : Nat) : Nat :=
  let q := padded (d.shardRanks p)
  d.fld (RED_LEAF_BASE_BASE p) * 4096 + 2 * d.fld (TRN_SHARD_SLOTS_SLOTS p) * q * 4096 + (slot * q + j) * 64
def Dev.rootAt (d : Dev) (p slot : Nat) : Nat := d.fld (RED_ROOT_BASE_BASE p) * 4096 + slot * 4096
def Dev.rootHeadAt (d : Dev) (p slot : Nat) : Nat :=
  d.fld (RED_ROOT_BASE_BASE p) * 4096 + 2 * d.fld (TRN_SHARD_SLOTS_SLOTS p) * 4096 + slot * 64

/-! ### Sending (R495 to R500, R513) -/

/-- GSEND (R495, R496). -/
def actGsend (sel : Sel) (w : LongW) : Act :=
  issueLong sel 11 0x02 w fun x =>
    .seq (ungateArrays x.n) <| withDesc x 16 fun v => .dyn fun d =>
      let p := x.task.part
      let tile := field w.ext 0 8
      if field v 44 4 != 0 || field v 71 9 != 0 || field v 96 32 != 0 || decide (d.accumCount p ≤ field v 32 12) then
        x.fault fkIllegal
      else if d.fld (TRN_SHARD_SLOTS_SLOTS p) * d.shardRanks p ≤ field v 0 32 then x.fault fkMemRange
      else if isRecto x.n then x.fault fkRole
      else if tile % 8 != 0 || accTiles x.n < tile + 8 then x.fault fkAccRange
      else newId x.task.id fun id => updQuire x.n fun q =>
        { q with mtx := { q.mtx with queue := q.mtx.queue ++ [⟨id, x.slot, x.task.id, x.g.num, x.mask, .gsend, tile,
          false, tileOf 0, [], 0, 0, v⟩] } }

/-- The REDUCE packet of a kept packet: to another rank over the fabric, to this device's own locally (R499). -/
def redDispatch (x : RedSend) : Act := .dyn fun d =>
  let k := { pkt0 pkReduce with dest := x.dest, addr := x.tile, data := x.bytes }
  if d.holdsRank x.part then fabSend k 0
  else updFab fun f => { f with own := f.own ++ [{ k with part := x.part }] }

/-- The GSEND at the head of the matrix queue reads its tiles: the values become BF16, the packet is built, kept and
sent (R351, R497, R498). -/
def gsendRun (n : Nat) (o : MOp) : Act := .dyn fun d =>
  let pop := updQuire n fun q => Quire.settle { q with mtx := { q.mtx with queue := q.mtx.queue.drop 1 } }
  match d.task o.task with
  | none => pop
  | some t =>
    let p := t.part
    let v := o.gdesc
    let m := (d.quire n).mtx
    let data := (List.range 2048).flatMap fun e =>
      leBytes 2 (bf16.round 0 0 (fp32.decode (m.accElem (o.tile + e / 256) (e % 256)).toNat))
    let tile := field v 0 32
    let mb := field v 32 12
    let x : RedSend := {
      part := p, step := t.step, attempt := t.attempt, tile := tile, mb := mb
      bytes := redHeader t.step t.attempt (d.redRank p) tile mb (nfCount data) (field v 48 16) (field v 80 16)
        (checksum data) ++ data
      dest := d.redOwner p tile, quire := n, counter := field v 64 5, signal := bit v 69 }
    .all [pop, updRed fun r => { r with
        sends := r.sends ++ [x]
        finals := if bit v 70 then (p, t.step, t.attempt) :: r.finals else r.finals },
      redDispatch x]

/-- MTX_ACC_READ_START: the MSTORE or GSEND at the head reads its tiles once they hold their results (R354). -/
def actMtxAccReadStart (n : Nat) : Act := .dyn fun d =>
  let q := d.quire n
  match q.mtx.queue with
  | [] => .skip
  | o :: _ =>
    if !q.tilesReady o then .skip
    else match o.kind with
      | .mstore => mstoreRun n o
      | .gsend => gsendRun n o
      | _ => .skip

/-- REDUCE_RESEND: a kept packet is sent again unchanged (R513). -/
def actReduceResend (p step attempt tile mb : Nat) : Act := .dyn fun d =>
  match d.eng.red.sends.find? fun x =>
      x.part == p && x.step == step && x.attempt == attempt && x.tile == tile && x.mb == mb with
  | some x => .seq (Act.add (RED_SEND_RESENDS p) 1) (redDispatch x)
  | none => .skip

/-- RANK_DONE goes to the job manager once the FINAL packet of the attempt and every earlier one is answered (R517). -/
def rankDoneIf (p : Nat) : Act := .dyn fun d =>
  let tag := d.tag p
  let r := d.eng.red
  let mine := fun (a b : Nat) => (a, b) == tag
  match d.jobManagerRank with
  | none => .skip
  | some jm =>
    if d.holdsRank p && !r.rankDone && r.finals.contains (p, tag) &&
        !(r.sends.any fun x => x.part == p && mine x.step x.attempt) &&
        !((d.gsendsQueued p).any fun o => (d.task o.task).any fun t => mine t.step t.attempt) then
      .seq (updRed fun r => { r with rankDone := true })
        (fabSend { pkt0 pkRankDone with
          dest := jm, data := leBytes 4 tag.1 ++ leBytes 2 tag.2 ++ leBytes 2 d.ownRank } 0)
    else .skip

/-- The send engine frees a packet and honours SIGNAL (R513). -/
def freeSend (x : RedSend) : Act :=
  .all [updRed fun r => { r with sends := r.sends.erase x },
    Act.when x.signal (updQuire x.quire fun q => q.arrive x.counter 1)]

/-- REDUCE_ANSWER: any answer but EARLY frees the packet (R513). -/
def redAnswered (p : Nat) (k : Pkt) : Act := .dyn fun d =>
  let b := k.data
  match d.eng.red.sends.find? fun x => x.part == p && x.step == leAt b 0 4 && x.attempt == leAt b 4 2 &&
      x.tile == leAt b 8 4 && x.mb == leAt b 12 2 with
  | none => .skip
  | some x => if leAt b 14 1 = 4 then .skip else .seq (freeSend x) (rankDoneIf p)

def actReduceAnswer (port : Nat) (k0 : Pkt) : Act :=
  let k := { k0 with kind := pkReduceAnswer }
  arrive port k (fun _ => []) fun p => redAnswered p k

/-! ### Arrival at the owner (R506, R507, R512) -/

def raAccepted : Nat := 0
def raStale : Nat := 1
def raDropped : Nat := 2
def raMisdirected : Nat := 3
def raEarly : Nat := 4
def raDuplicate : Nat := 5
def raCheckFail : Nat := 6

/-- The answer to a reduction packet: over the fabric to a rank, locally to a partition without one (R554). -/
def redReply (p : Nat) (k : Pkt) (code : Nat) : Act := .dyn fun d =>
  let h := k.data
  let a := { backTo k pkReduceAnswer with
    addr := rhTile h
    arg := code
    data := leBytes 4 (rhStep h) ++ leBytes 2 (rhAttempt h) ++ leBytes 2 (rhRank h) ++ leBytes 4 (rhTile h) ++
      leBytes 2 (rhMb h) ++ leBytes 1 code ++ [0] }
  if d.holdsRank p then fabSend a 0
  else updFab fun f => { f with own := f.own ++ [{ a with part := p }] }

/-- DETAIL of a CHECKSUM record (R577). -/
def checksumDetail (tile step attempt rank mb : Nat) : List Byte :=
  leBytes 4 tile ++ leBytes 4 step ++ leBytes 2 attempt ++ leBytes 2 rank ++ leBytes 2 mb

/-- RED_STATUS.CHECK_FAIL and its counter. -/
def checkFail (p : Nat) : Act := Act.raise (RED_STATUS_CHECK_FAIL p) (RED_COUNT_D_CHECK_FAILS p)

/-- A failed entry check: a record of severity RANK about the sender, which fences nothing (R507). -/
def entryFails (p : Nat) (h : List Byte) : Act := .dyn fun d =>
  let f := faultOf d fkChecksum p 0 (checksumDetail (rhTile h) (rhStep h) (rhAttempt h) (rhRank h) (rhMb h))
  .seq (checkFail p) (faultRecord (if d.holdsRank p then { f with rank := rhRank h } else f))

/-- A failed combination: nothing is written, the channel of its home is fenced, and the tile is never checked in this
attempt (R503). -/
def combineFails (p tile o : Nat) (detail : List Byte) : Act := .dyn fun d =>
  let c := d.chanOf p o
  let tag := d.tag p
  .all [checkFail p, fenceChan c fkChecksum, report fkChecksum p (unitChan c) detail,
    updRed fun r => { r with trees := r.trees.map fun t =>
      if t.part == p && t.tile == tile && (t.step, t.attempt) == tag then { t with stage := 3 } else t }]

/-- The header of a leaf. -/
def Dev.leafHead (d : Dev) (p slot j : Nat) : List Byte := d.viewBytes p none (d.leafHeadAt p slot j) 64

/-- A leaf as it stands. -/
def Dev.leafTile (d : Dev) (p slot j : Nat) : RedTile :=
  let h := d.leafHead p slot j
  ⟨d.viewBytes p none (d.leafAtSlot p slot j) 4096, rhSum h, rhNf h, rhSamples h⟩

/-- The tree of a tile in the current attempt counts as begun, and a complete leaf notes its packet's ROOT_TALLY. -/
def noteTree (p tile slot : Nat) (complete : Bool) (tally : Nat) : Act := .dyn fun d =>
  let tag := d.tag p
  let same := fun t : Tree => t.part == p && t.tile == tile
  let now := fun t : Tree => same t && (t.step, t.attempt) == tag
  let fresh : Tree :=
    { part := p, step := tag.1, attempt := tag.2, tile := tile, slot := slot,
      tally := if complete then tally else 0xFFFF, stage := 0, id := 0, head := [] }
  let note := fun l : List Tree =>
    if l.any now then l.map fun t => if now t && complete then { t with tally := tally } else t
    else (l.filter fun t => !same t) ++ [fresh]
  updRed fun r => { r with trees := note r.trees }

/-- The entry check and the application of a packet to its leaf: MB 0 replaces it, a later one is combined with it
(R506, R507). -/
def applyLeaf (p : Nat) (k : Pkt) (slot : Nat) : Act := .dyn fun d =>
  let h := k.data.take 64
  let data := k.data.drop 64
  let j := rhRank h
  let mb := rhMb h
  let tag := d.tag p
  let y : RedTile := ⟨data, checksum data, nfCount data, rhSamples h⟩
  let o := d.leafAtSlot p slot j
  let put := fun (x : RedTile) (bad : Bool) => Act.all [
    memWrite p none o x.data bad 0,
    memWrite p none (d.leafHeadAt p slot j)
      (redHeader tag.1 tag.2 j (rhTile h) (mb + 1) x.nf x.samples 0 x.sum) bad 0,
    noteTree p (rhTile h) slot (decide (mb + 1 = d.accumCount p)) (rhTally h),
    Act.add (RED_COUNT_A_ACCEPTED p) 1, redReply p k raAccepted]
  if y.sum != rhSum h || y.nf != rhNf h then .seq (entryFails p h) (redReply p k raCheckFail)
  else if mb = 0 then put y false
  else match combine (d.leafTile p slot j) y with
    | some x => put x (d.poisoned p none o 4096)
    | none => .seq (combineFails p (rhTile h) o
        (checksumDetail (rhTile h) tag.1 tag.2 j mb)) (redReply p k raCheckFail)

/-- A packet of the current attempt against drop set, ownership, areas and its leaf (R512). -/
def redCurrent (p : Nat) (k : Pkt) : Act := .dyn fun d =>
  let h := k.data.take 64
  let j := rhRank h
  let t := rhTile h
  let mb := rhMb h
  let slot := d.redSlot p t
  let refuse := fun code => Act.seq (Act.add (RED_COUNT_D_REFUSED p) 1) (redReply p k code)
  let early := Act.seq (Act.add (RED_COUNT_B_EARLY p) 1) (redReply p k raEarly)
  let lh := d.leafHead p slot j
  if (d.dropSet p).contains j then refuse raDropped
  else if d.shardRanks p ≤ j || d.redOwner p t != d.redRank p || d.accumCount p ≤ mb then refuse raMisdirected
  else if !d.inMemory p (d.leafAtSlot p slot j) 4096 || !d.inMemory p (d.leafHeadAt p slot j) 64 then
    .all [Act.raise (RED_STATUS_AREA_FAULT p) (RED_COUNT_E_AREA_FAULTS p), updRed fun r => { r with area := true },
      refuse raMisdirected]
  else if tagOlder (rhStep lh, rhAttempt lh) (d.tag p) then (if mb = 0 then applyLeaf p k slot else early)
  else if mb < rhMb lh then .seq (Act.add (RED_COUNT_A_DUPLICATE p) 1) (redReply p k raDuplicate)
  else if rhMb lh < mb then early
  else applyLeaf p k slot

/-- A reduction packet at its partition: old ones are answered STALE, newer ones wait for their attempt (R512). -/
def redArrived (port p : Nat) (k : Pkt) : Act := .dyn fun d =>
  let h := k.data
  let tag := (rhStep h, rhAttempt h)
  if tagOlder tag (d.tag p) then .seq (Act.add (RED_COUNT_B_STALE p) 1) (redReply p k raStale)
  else if h.length ≠ 4160 then .seq (entryFails p h) (redReply p k raCheckFail)
  else if tagOlder (d.tag p) tag then holdPkt port k
  else redCurrent p k

/-- The leaf that a reduction packet reads. -/
def Dev.redReads (d : Dev) (p : Nat) (k : Pkt) : List (Nat × Nat × Nat) :=
  let slot := d.redSlot p (rhTile k.data)
  let j := rhRank k.data
  [(p, d.leafAtSlot p slot j, 4096), (p, d.leafHeadAt p slot j, 64)]

/-- REDUCE. -/
def actReduce (port : Nat) (k0 : Pkt) : Act := .dyn fun d =>
  let k := { k0 with kind := pkReduce }
  arrive port k (fun p => d.redReads p k) fun p => redArrived port p k

/-! ### Trees (R504, R505, R508 to R510) -/

/-- A leaf is empty: beyond N, or of a dropped rank. -/
def Dev.leafEmpty (d : Dev) (p j : Nat) : Bool := decide (d.shardRanks p ≤ j) || (d.dropSet p).contains j

/-- A leaf is complete: its arrival bit. -/
def Dev.leafComplete (d : Dev) (p slot j : Nat) : Bool :=
  let h := d.leafHead p slot j
  (rhStep h, rhAttempt h) == d.tag p && rhMb h == d.accumCount p

/-- A node of the tree: none is empty; the check of a combination may fail. -/
inductive Node where
  | empty
  | full (t : RedTile)
  | failed
  deriving DecidableEq, Repr

/-- A node from its children (R505). -/
def Node.join : Node → Node → Node
  | .failed, _ => .failed
  | _, .failed => .failed
  | .empty, y => y
  | x, .empty => x
  | .full x, .full y => match combine x y with
    | some t => .full t
    | none => .failed

/-- One level of the tree. -/
def levelUp : List Node → List Node
  | x :: y :: t => x.join y :: levelUp t
  | l => l

/-- The root: levels are joined until one node is left. -/
def rootOf : Nat → List Node → Node
  | 0, l => l.headD .empty
  | n + 1, l => rootOf n (levelUp l)

/-- The leaves of a slot, as nodes. -/
def Dev.leafNodes (d : Dev) (p slot : Nat) : List Node :=
  (List.range (padded (d.shardRanks p))).map fun j =>
    if d.leafEmpty p j then .empty else .full (d.leafTile p slot j)

/-- Levels above the leaves. -/
def Dev.redLevels (d : Dev) (p : Nat) : Nat := Nat.log2 (padded (d.shardRanks p))

def setTree (p tile : Nat) (f : Tree → Tree) : Act := updRed fun r =>
  { r with trees := r.trees.map fun t => if t.part == p && t.tile == tile then f t else t }

/-- TREE_EVALUATE: every leaf is complete or empty and node buffers are free; the root's data is written (R508 to
R510). -/
def actTreeEvaluate (p tile : Nat) : Act := .dyn fun d =>
  match d.eng.red.trees.find? fun t => t.part == p && t.tile == tile && t.stage == 0 && (t.step, t.attempt) == d.tag p with
  | none => .skip
  | some t =>
    let n := d.shardRanks p
    let js := (List.range (padded n)).filter fun j => !d.leafEmpty p j
    if !(js.all fun j => d.leafComplete p t.slot j) then .skip
    else if d.redPool p < d.redPoolUsed p + 4160 * d.redLevels p then Act.set (RED_STATUS_POOL_WAIT p) 1
    else afterSnoop (js.map fun j => (p, d.leafAtSlot p t.slot j, 4096)) <|
      .seq (Act.set (RED_STATUS_POOL_WAIT p) 0) <|
      match rootOf (d.redLevels p) (d.leafNodes p t.slot) with
      | .full x =>
        let head := redHeader t.step t.attempt (d.redRank p) tile js.length x.nf x.samples 0 x.sum
        let bad := js.any fun j => d.poisoned p none (d.leafAtSlot p t.slot j) 4096
        if !d.inMemory p (d.rootAt p t.slot) 4096 || !d.inMemory p (d.rootHeadAt p t.slot) 64 then
          .all [Act.raise (RED_STATUS_AREA_FAULT p) (RED_COUNT_E_AREA_FAULTS p),
            setTree p tile fun t => { t with stage := 4, head := head }]
        else newId 0 fun id => .seq
          (setTree p tile fun t => { t with stage := 1, id := id, head := head })
          (memWrite p none (d.rootAt p t.slot) x.data bad id)
      | _ => combineFails p tile (d.leafAtSlot p t.slot 0) (checksumDetail tile t.step t.attempt (d.redRank p) 0)

/-- ROOT_WRITE: after the root's data is accepted, its header is written and ROOT_TALLY counts (R508). -/
def actRootWrite (p tile : Nat) : Act := .dyn fun d =>
  match d.eng.red.trees.find? fun t => t.part == p && t.tile == tile && t.stage == 1 && (t.step, t.attempt) == d.tag p with
  | none => .skip
  | some t =>
    if d.busy t.id then .skip
    else .all [memWrite p none (d.rootHeadAt p t.slot) t.head false 0,
      setTree p tile fun t => { t with stage := 2 }, Act.add (RED_COUNT_C_ROOTS p) 1,
      Act.when (rhNf t.head != 0) (Act.raise (RED_STATUS_NONFINITE_ROOT p) (RED_COUNT_C_NONFINITE p)),
      if t.tally = 0xFFFF then .skip
      else match d.relTally p t.tally with
        | some x => tallyAdd x 1
        | none => queueError p]

/-! ### OWNER_DONE (R519) -/

/-- The gate tally is satisfied by its value at the opening plus 1. -/
def Dev.gateOpen (d : Dev) (p : Nat) : Bool :=
  let n := d.fld (RED_GATE_TALLY p)
  n == 0xFFFF || (d.relTally p n).any fun t => tallySat (d.fld (TLY_VALUE_VALUE t)) (d.eng.red.gate + 1)

/-- FLAGS of OWNER_DONE (R562): NONFINITE, CHECK_FAIL, UNFINISHED. -/
def ownerFlags (r : Red) (ts : List Tree) : Nat :=
  bv (ts.any fun t => (t.stage == 1 || t.stage == 2) && rhNf t.head != 0) + 2 * bv (ts.any fun t => t.stage == 3) +
  4 * bv (r.area || ts.any fun t => t.stage == 0 || t.stage == 4)

/-- OWNER_DONE_SEND: SENDS_CLOSED has come, every tree with an applied leaf is evaluated, the gate is open. -/
def actOwnerDoneSend : Act := .dyn fun d =>
  match d.rankPart, d.jobManagerRank with
  | some p, some jm =>
    let tag := d.tag p
    let r := d.eng.red
    let ts := r.trees.filter fun t => t.part == p && (t.step, t.attempt) == tag
    if r.closed && !r.ownerDone && (ts.all fun t => t.stage != 0) && d.gateOpen p then
      .seq (updRed fun r => { r with ownerDone := true })
        (fabSend { pkt0 pkOwnerDone with
          dest := jm
          data := leBytes 4 tag.1 ++ leBytes 2 tag.2 ++ leBytes 2 d.ownRank ++ leBytes 1 (ownerFlags r ts) ++
            leBytes 4 (ts.filter fun t => t.stage == 2).length } 0)
    else .skip
  | _, _ => .skip

/-! ### Commands -/

def execGsend (sel : Sel) (w : LongW) (s : State) : Host.Outcome State Fault Refusal := cmd (actGsend sel w) s
def execMtxAccReadStart (n : Nat) (s : State) : Host.Outcome State Fault Refusal := cmd (actMtxAccReadStart n) s
def execReduce (port : Nat) (k : Pkt) (s : State) : Host.Outcome State Fault Refusal := cmd (actReduce port k) s
def execReduceAnswer (port : Nat) (k : Pkt) (s : State) : Host.Outcome State Fault Refusal :=
  cmd (actReduceAnswer port k) s
def execReduceResend (p step attempt tile mb : Nat) (s : State) : Host.Outcome State Fault Refusal :=
  cmd (actReduceResend p step attempt tile mb) s
def execTreeEvaluate (p tile : Nat) (s : State) : Host.Outcome State Fault Refusal := cmd (actTreeEvaluate p tile) s
def execRootWrite (p tile : Nat) (s : State) : Host.Outcome State Fault Refusal := cmd (actRootWrite p tile) s
def execOwnerDoneSend (s : State) : Host.Outcome State Fault Refusal := cmd actOwnerDoneSend s

end Sys2Proof.Machine
end

