-- ==== Sys2Proof/Machine/Resil.lean ====
section
/-! DEFINITION. Fills of a spare and snapshots (18). -/

namespace Sys2Proof.Machine

/-! ### Mirroring to a dropped partner (R591) -/

/-- A MIRROR or FILL_DATA packet to the partner. -/
def Dev.toPartner (d : Dev) (k : Pkt) (kind : Nat) : Bool := k.kind == kind && !k.bySlot && k.dest == d.partner

/-- Drop the packets of a kind that go to the partner. -/
def dropToPartner (kind : Nat) : Act := .dyn fun d => updFab fun f => { f with
  e2e := f.e2e.filter fun x => !d.toPartner x.pkt kind
  blocked := f.blocked.filter fun x => !d.toPartner x.1 kind
  unrouted := f.unrouted.filter fun x => !d.toPartner x kind }

/-- Mirroring to the partner is suspended: its unacknowledged packets are discarded and counted. -/
def suspendMirrors : Act := .dyn fun d =>
  let n := (d.eng.fab.e2e.filter fun x => d.toPartner x.pkt pkMirror).length +
    (d.eng.fab.blocked.filter fun x => d.toPartner x.1 pkMirror).length
  .all [Act.set RES_STATUS_MIRROR_SUSPENDED 1, Act.add RES_COUNT_C_SUPPRESSED n, dropToPartner pkMirror,
    .eng fun e => { e with dune := { e.dune with mirrors := e.dune.mirrors.filter fun m => m.dest != d.partner } }]

/-! ### Fills (R595 to R598) -/

def fillError (n : Nat) : Act := Act.set RES_FILL_STATUS_ERROR n
def updResil (f : Resil → Resil) : Act := .eng fun e => { e with resil := f e.resil }

/-- The granules of one kind of range over the enabled windows, window by window. -/
def Dev.rangeGranules (d : Dev) (first : Nat → Nat) : List Nat :=
  ([0, 1, 2, 3].filter fun k => d.flag (RES_MIRROR_LOCAL_EN k)).flatMap fun k =>
    (List.range (d.fld (RES_MIRROR_PAGES_PAGES k))).map fun i => first k + i

/-- Put a number into an ascending list once. -/
def insertAsc (n : Nat) : List Nat → List Nat
  | [] => [n]
  | x :: t => if n < x then n :: x :: t else if n = x then x :: t else x :: insertAsc n t

/-- A list in ascending order. -/
def ascending (l : List Nat) : List Nat := l.foldr insertAsc []

/-- The granules of the LOCAL ranges, as an image holds them (R602), and of the REMOTE ranges. -/
def Dev.localGranules (d : Dev) : List Nat := d.rangeGranules fun k => d.fld (RES_MIRROR_LOCAL_LOCAL k)
def Dev.remoteGranules (d : Dev) : List Nat := d.rangeGranules fun k => d.fld (RES_MIRROR_REMOTE_REMOTE k)

/-- The FILL_DATA packet of a granule: its committed content, or a version of an open job-wide epoch (R595). -/
def Dev.fillPacket (d : Dev) (p g : Nat) (v : Option Version) : Pkt :=
  let mask := match v with
    | some v => v.mask
    | none => 2 ^ 64 - 1
  let view := v.map Version.epoch
  let ls := upTo 64 (bit mask)
  { pkt0 pkFillData with
    dest := d.partner, epoch := view.getD 0, addr := d.mirrorAddr g * 4096,
    poison := ls.any fun l => d.linePoison p view (g * 4096 + l * 64),
    data := leBytes 8 mask ++ leBytes 1 (bv v.isSome) ++ List.replicate 7 0 ++
      (ls.map fun l => d.viewBytes p view (g * 4096 + l * 64) 64).flatten }

/-- The bulk stream reads one granule: its committed content and each version of an open job-wide epoch. -/
def fillGranule (p g : Nat) : Act := .dyn fun d =>
  .all [fabSend (d.fillPacket p g none) 0,
    Act.each (d.eng.dune.versions.filter fun v => v.part == p && v.gran == g && jobWide v.epoch) fun v =>
      fabSend (d.fillPacket p g (some v)) 0,
    Act.add RES_FILL_STATUS_GRANULES 1,
    updResil fun r => { r with bulk := r.bulk.drop 1 }]

/-- The bulk stream goes on until a granule whose lines the host has to give back. -/
def bulkOn (p : Nat) : Act := .dyn fun d =>
  let free := d.eng.resil.bulk.takeWhile fun g => d.hostBusy p (g * 4096) 4096 == []
  .seq (Act.each free (fillGranule p)) <| .dyn fun d =>
    match d.eng.resil.bulk with
    | [] => .skip
    | g :: _ => afterSnoop [(p, g * 4096, 4096)] .skip

/-- FILL_START: a write of RES_FILL_CTRL.START (R595). -/
def fillStart : Act := .dyn fun d =>
  match d.rankPart with
  | none => fillError 1
  | some p =>
    if !d.eng.red.drop.contains d.partner then fillError 1
    else if !([0, 1, 2, 3].any fun k => d.flag (RES_MIRROR_LOCAL_EN k)) then fillError 2
    else if d.filling then fillError 3
    else .all [fillError 0, Act.set RES_FILL_STATUS_GRANULES 0,
      updResil fun r => { r with bulk := ascending d.remoteGranules ++ ascending d.localGranules }, fillState 1, bulkOn p]

/-- DETAIL of FILL_DONE and FILL_ABORTED (R577). -/
def fillDetail (d : Dev) : List Byte :=
  leBytes 2 d.partner ++ leBytes 2 d.eng.resil.spareInc ++ leBytes 8 (d.fld RES_FILL_STATUS_GRANULES)

/-- FILL_DONE: every granule is read and every bulk and live packet acknowledged (R595). -/
def actFillDone : Act := .dyn fun d =>
  match d.rankPart with
  | none => .skip
  | some p =>
    if d.fld RES_FILL_STATUS_STATE != 1 then .skip
    else .seq (bulkOn p) <| .dyn fun d =>
      let waits := fun k => d.toPartner k pkFillData || d.toPartner k pkMirror
      if d.eng.resil.bulk != [] || (d.eng.fab.e2e.any fun x => waits x.pkt) ||
          (d.eng.fab.blocked.any fun x => waits x.1) || (d.eng.dune.mirrors.any fun m => m.dest == d.partner) then .skip
      else .all [fillState 2, .dyn fun d => report fkFillDone p 0 (fillDetail d)]

/-- A fill ends ABORTED: mirroring is suspended again (R598). -/
def abortFill : Act := .dyn fun d =>
  if d.filling then
    .all [fillState 3, updResil fun r => { r with bulk := [] }, dropToPartner pkFillData, suspendMirrors,
      report fkFillAborted (d.rankPart.getD 0xFF) 0 (fillDetail d)]
  else .skip

/-- A write of RES_FILL_CTRL. -/
def fillCtrl (v : Nat) : Act := .all [Act.when (bit v 0) fillStart, Act.when (bit v 1) abortFill]

/-! ### Snapshots (R600 to R606) -/

def snapError (n : Nat) : Act := Act.set RES_SNAP_STATUS_ERROR n

/-- Granules of an image: those of the enabled LOCAL ranges (R602). -/
def Dev.imageGranules (d : Dev) : Nat := d.localGranules.length

/-- A write of RES_SNAP_CFG: SPLIT is fixed while ENABLE is 1; ENABLE trains the port, and without it no drive is driven
(R600, R658). -/
def snapCfg (v : Nat) : Act := .dyn fun d =>
  .all [Act.when (!d.flag RES_SNAP_CFG_ENABLE) (Act.set RES_SNAP_CFG_SPLIT (field v 1 1)),
    Act.set RES_SNAP_CFG_ENABLE (field v 0 1),
    Act.when (!bit v 0) (.all [Act.set RES_SNAP_CFG_DRIVES 0, .eng fun e => { e with pwr := { e.pwr with perst := 0 } }])]

/-- SNAPSHOT_PORT_TRAINED: the drives counted are those with a 4,096-byte LBA format; on one x16 link there is one
(R600). -/
def actSnapshotPortTrained (drives : Nat) : Act := .dyn fun d =>
  let ds := if d.flag RES_SNAP_CFG_SPLIT then drives % 16 else drives % 2
  Act.when (d.flag RES_SNAP_CFG_ENABLE) (.all [Act.set RES_SNAP_CFG_DRIVES ds,
    .eng fun e => { e with pwr := { e.pwr with perst := if d.flag RES_SNAP_CFG_SPLIT then 15 else 1 } }])

/-- Freeze the rank partition: writing starts (R487, R601). -/
def freeze (p : Nat) : Act := .dyn fun d =>
  .all [.eng fun e => { e with dune := { e.dune with frozen := e.dune.frozen ++
      [{ part := p, step := d.fld (TRN_STEP_STEP p), exp := d.fld (TRN_LS_EXP p), lsMode := d.lsMode p,
         clean := d.fld (TRN_LS_CLEAN p), stamp := d.alignedStamp, copies := [] }] } },
    snapState 2]

/-- ARM with step T, or its refusal (R601, R605). -/
def snapArm (t : Nat) : Act := .dyn fun d =>
  match d.rankPart with
  | none => .skip
  | some p =>
    let drives := popBits (d.fld RES_SNAP_CFG_DRIVES) 4
    if d.fld RES_SNAP_STATUS_STATE != 0 then snapError 1
    else if t < d.fld (TRN_STEP_STEP p) then snapError 2
    else if drives = 0 then snapError 4
    else if d.fld RES_SNAP_LBAS_LBA / 2 < 1 + ceilDiv d.imageGranules drives then snapError 3
    else .all [snapError 0, updResil fun r => { r with armed := t },
      if d.trainingActive p then snapState 1 else freeze p]

/-- RESTORE starts at a quiesce point (R606). -/
def snapRestore : Act := .dyn fun d =>
  match d.rankPart with
  | none => .skip
  | some p =>
    if !d.quiesced p || d.eng.pwr.stopping then .skip
    else if d.fld RES_SNAP_STATUS_STATE != 0 then snapError 1
    else if d.fld RES_SNAP_CFG_DRIVES = 0 then snapError 4
    else .seq (snapError 0) (snapState 3)

/-- CANCEL: an ARMED engine is IDLE again, one that writes has a drive error (R605). -/
def snapCancel : Act := .dyn fun d =>
  match d.fld RES_SNAP_STATUS_STATE with
  | 1 => snapState 0
  | 2 => snapshotFails 5
  | _ => .skip

/-- A write of RES_SNAP_CTRL. -/
def snapCtrl (v : Nat) : Act :=
  .all [Act.when (bit v 0) (snapArm (field v 32 32)), Act.when (bit v 1) snapRestore, Act.when (bit v 2) snapCancel]

/-- SNAPSHOT_DONE: the header is marked complete after the final flush, and the image is released (R601, R603). -/
def actSnapshotDone : Act := .dyn fun d =>
  match d.rankPart with
  | none => .skip
  | some p =>
    match d.frozenOf p with
    | none => .skip
    | some f =>
      if d.fld RES_SNAP_STATUS_STATE != 2 || d.eng.pwr.stopping then .skip
      else
        let area := 1 - d.fld RES_SNAP_STATUS_AREA
        .all [snapState 0, Act.set RES_SNAP_STATUS_AREA area, Act.set RES_SNAP_STATUS_LAST_STEP f.step,
          Act.set RES_SNAP_TIME_MS (min ((d.alignedStamp - f.stamp) / 1200000) (2 ^ 32 - 1)),
          Act.add RES_SNAP_TIME_COMPLETED 1,
          .eng fun e => { e with dune := { e.dune with frozen := e.dune.frozen.filter fun f => f.part != p } },
          report fkSnapshotDone p 0 (leBytes 4 f.step ++ leBytes 1 area ++ leBytes 1 (d.fld RES_SNAP_STATUS_ERROR))]

/-- SNAPSHOT_DRIVE_ERROR (R603); a restore that meets one ends too. -/
def actSnapshotDriveError : Act := .dyn fun d =>
  match d.fld RES_SNAP_STATUS_STATE with
  | 2 => snapshotFails 5
  | 3 => .seq (snapError 5) (snapState 0)
  | _ => .skip

/-- A header of R604 that marks a complete image. -/
def snapComplete (h : List Byte) : Bool := leAt h 0 4 == 0x50414E53 && leAt h 4 1 == 1

/-- The area RESTORE takes: the complete one with the higher STEP (R606). -/
def snapSelect (h0 h1 : List Byte) : Option (Nat × List Byte) :=
  match snapComplete h0, snapComplete h1 with
  | true, true => if leAt h0 20 4 < leAt h1 20 4 then some (1, h1) else some (0, h0)
  | true, false => some (0, h0)
  | false, true => some (1, h1)
  | false, false => none

/-- RESTORE_DONE: the two headers and the content of the area selected, as the drives return them (R606). -/
def actRestoreDone (h0 h1 content : List Byte) : Act := .dyn fun d =>
  let ends := fun e => Act.seq (snapError e) (snapState 0)
  if d.fld RES_SNAP_STATUS_STATE != 3 || d.eng.pwr.stopping then .skip
  else match d.rankPart, snapSelect h0 h1 with
    | none, _ => .skip
    | _, none => ends 7
    | some p, some (area, h) =>
      let gs := d.localGranules
      if leAt h 8 8 != d.jobId || leAt h 16 2 != d.ownRank || leAt h 32 8 != gs.length then ends 8
      else
        let bs := fit (gs.length * 4096) content
        .all [Act.each (List.range gs.length) fun i =>
            memWrite p none (gs.getD i 0 * 4096) ((bs.drop (i * 4096)).take 4096) false 0,
          Act.set RES_SNAP_STATUS_AREA area, Act.set RES_SNAP_STATUS_LAST_STEP (leAt h 20 4),
          ends (if sm3 bs = (h.drop 72).take 32 then 0 else 9)]

/-! ### Commands -/

def execFillStart (s : State) : Host.Outcome State Fault Refusal := cmd (fillCtrl 1) s
def execFillAbort (s : State) : Host.Outcome State Fault Refusal := cmd (fillCtrl 2) s
def execFillDone (s : State) : Host.Outcome State Fault Refusal := cmd actFillDone s
def execSnapshotEnable (v : Nat) (s : State) : Host.Outcome State Fault Refusal := cmd (snapCfg v) s
def execSnapshotPortTrained (drives : Nat) (s : State) : Host.Outcome State Fault Refusal :=
  cmd (actSnapshotPortTrained drives) s
def execSnapshotArm (t : Nat) (s : State) : Host.Outcome State Fault Refusal := cmd (snapArm t) s
def execSnapshotCancel (s : State) : Host.Outcome State Fault Refusal := cmd snapCancel s
def execSnapshotRestore (s : State) : Host.Outcome State Fault Refusal := cmd snapRestore s
def execSnapshotDone (s : State) : Host.Outcome State Fault Refusal := cmd actSnapshotDone s
def execSnapshotDriveError (s : State) : Host.Outcome State Fault Refusal := cmd actSnapshotDriveError s
def execRestoreDone (h0 h1 content : List Byte) (s : State) : Host.Outcome State Fault Refusal :=
  cmd (actRestoreDone h0 h1 content) s

end Sys2Proof.Machine
end

