-- ==== Sys2Proof/Machine/Validate.lean ====
section
/-! DEFINITION. Image files and their validation (02): the header, the records, and every check of R68 in the order
of its codes. -/

namespace Sys2Proof.Machine

/-! ### The header (R34) -/

def hMagic (b : List Byte) : Nat := leAt b 0 4
def hFormat (b : List Byte) : Nat := leAt b 4 2
def hKind (b : List Byte) : Nat := leAt b 6 1
def hMode (b : List Byte) : Nat := leAt b 7 1
def hMember (b : List Byte) : Nat := leAt b 8 1
def hFlags (b : List Byte) : Nat := leAt b 9 1
def hCount (b : List Byte) : Nat := leAt b 12 4
def hBodyLen (b : List Byte) : Nat := leAt b 16 8
def hBaseDigest (b : List Byte) : List Byte := (b.drop 0x18).take 32
def hBodyDigest (b : List Byte) : List Byte := (b.drop 0x38).take 32
def hConfigDigest (b : List Byte) : List Byte := (b.drop 0x58).take 32
def hSigner (b : List Byte) : Nat := leAt b 0x78 8
def hSignature (b : List Byte) : List Byte := (b.drop 0xC0).take 64
def hBody (b : List Byte) : List Byte := b.drop 256

/-- The records of a body, which they must fill exactly (R36). -/
def parseRecs : Nat → List Byte → Option (List ImgRec)
  | 0, bs => if bs = [] then some [] else none
  | n + 1, bs =>
    let len := leAt bs 4 4
    if bs.length < 16 + len then none
    else (parseRecs n (bs.drop (16 + len))).map fun t =>
      { ty := leAt bs 0 2, flags := leAt bs 2 2, key := leAt bs 8 8, body := (bs.drop 16).take len } :: t

/-- A record's bytes as they stand in a body. -/
def recBytes (r : ImgRec) : List Byte :=
  leBytes 2 r.ty ++ leBytes 2 r.flags ++ leBytes 4 r.body.length ++ leBytes 8 r.key ++ r.body

/-- What CONFIG_DIGEST covers: the body with every FENCE record left out (R34). -/
def configBody (rs : List ImgRec) : List Byte := ((rs.filter fun r => r.ty != rtFence).map recBytes).flatten

/-! ### Error codes (R68) -/

def ieMagic : Nat := 0x01
def ieFormat : Nat := 0x02
def ieMember : Nat := 0x03
def ieLength : Nat := 0x04
def ieDigest : Nat := 0x05
def ieSignature : Nat := 0x06
def ieBusy : Nat := 0x1D
def ieTimeout : Nat := 0x1E
def ieCancelled : Nat := 0x1F

/-- The first header or digest error of a fetched image, in code order (codes 0x01 to 0x06). -/
def Dev.headerError (d : Dev) (b : List Byte) (len : Nat) : Option Nat :=
  if hMagic b != 0x584F5354 then some ieMagic
  else if hFormat b != 1 then some ieFormat
  else if hMember b != d.fld CFG_DEVICE_ID_MEMBER then some ieMember
  else if 16777216 < len || len != 256 + hBodyLen b then some ieLength
  else match parseRecs (hCount b) (hBody b) with
    | none => some ieLength
    | some rs =>
      if hBodyDigest b != sm3 (hBody b) || hConfigDigest b != sm3 (configBody rs) then some ieDigest
      else if !d.verifies (hKind b) (hSigner b) (b.take 0xC0) (hSignature b) then some ieSignature
      else none

/-! ### Records -/

def knownTypes : List Nat :=
  [rtPartition, rtQuireRole, rtSigMode, rtQueues, rtTallies, rtPools, rtRanks, rtRoutes, rtFabric, rtFence, rtSecurity,
    rtTraining, rtManager, rtRegInit]

def known (r : ImgRec) : Bool := knownTypes.contains r.ty

/-- The index of the first record that fails a test. -/
def firstBad (rs : List ImgRec) (bad : ImgRec → Bool) : Option Nat := rs.findIdx? bad

/-- Records out of ascending (TYPE, KEY) order (R37): the index of the later one. -/
def orderBad : Nat → List ImgRec → Option Nat
  | n, a :: b :: t =>
    if a.ty < b.ty || (a.ty == b.ty && decide (a.key < b.key)) then orderBad (n + 1) (b :: t) else some (n + 1)
  | _, _ => none

/-- A record type allowed in an image of a KIND and MODE (R40, R60). DESIGN CHOICE (log 102): a record of an unknown type
with OPTIONAL 1 is skipped under R38 in a MANAGER overlay too. -/
def allowed (kind mode : Nat) (r : ImgRec) : Bool :=
  if !known r then true
  else if kind = 0 then r.ty != rtManager
  else if mode = 4 then r.ty == rtManager
  else [rtQuireRole, rtSigMode, rtFabric, rtTraining, rtRegInit].contains r.ty

/-- A key that names a signature or all of them. -/
def sigKeyOk (k : Nat) : Bool := decide (k < 128) || k == allKey

/-- Bytes of a range of a body are all 0. -/
def zeros (b : List Byte) (off n : Nat) : Bool := leAt b off n == 0

/-- The unit identifiers of a FENCE body (R45). -/
def fenceUnits (b : List Byte) : List Nat := (List.range (b.length / 4)).map fun i => leAt b (4 * i) 4

/-- Every FENCE unit of a list of records, padding left out, with the quires of R365 in the place of their arrays. -/
def allFences (rs : List ImgRec) : List Nat :=
  mergeArrays ((rs.filter fun r => r.ty == rtFence).map fun r => (fenceUnits r.body).filter (· != 0)).flatten

/-- A field outside its stated range, a nonzero reserved field or a bad unit identifier (R68 code 0x0B); LENGTH and RFLAGS
are judged in records of unknown types as well (R36). DESIGN CHOICE (log 103): the KEY of a RANKS record is not compared with
the JOB_ID in its body. -/
def fieldBad (r : ImgRec) : Bool :=
  let b := r.body
  let n := b.length
  if 2 ≤ r.flags || n % 8 != 0 then true
  else if !known r then false
  else if r.ty = rtPartition then !(decide (r.key < 64) && n == 88 && zeros b 80 8)
  else if r.ty = rtQuireRole then !(sigKeyOk r.key && n == 16 && zeros b 12 4)
  else if r.ty = rtSigMode then !(sigKeyOk r.key && n == 8 && decide (leAt b 0 8 < 4))
  else if r.ty = rtQueues then !(decide (r.key < 64) && n == 24 && zeros b 20 4)
  else if r.ty = rtTallies then !(decide (r.key < 64) && n == 8 && zeros b 4 4)
  else if r.ty = rtPools then !(r.key == 0 && n == 16)
  else if r.ty = rtRanks then
    decide (n < 16) || leAt b 8 2 == 0 || decide (2 ≤ leAt b 12 2) || !zeros b 14 2 ||
    ((List.range ((n - 16) / 8)).any fun i =>
      decide (8 ≤ leAt b (20 + 8 * i) 1) || decide (4 ≤ leAt b (21 + 8 * i) 1) || !zeros b (22 + 8 * i) 2)
  else if r.ty = rtRoutes then r.key != 0 || (List.range (n / 8)).any fun i => !zeros b (8 * i + 4) 4
  else if r.ty = rtFabric then
    !(r.key == 0 && n == 16 && zeros b 0 2 && ((List.range 8).all fun i => decide (leAt b i 1 < 4)) &&
      decide (2000 ≤ leAt b 8 4) && decide (leAt b 8 4 ≤ 4000) && zeros b 12 4)
  else if r.ty = rtFence then r.key != 0 || (fenceUnits b).any fun u => !unitIdOk u
  else if r.ty = rtSecurity then !(decide (r.key < 64) && n == 8 && decide (leAt b 0 8 < 8))
  else if r.ty = rtTraining then
    !(decide (r.key < 64) && n == 32 && decide (1 ≤ leAt b 0 4) && decide (leAt b 0 4 ≤ 4096) &&
      decide (leAt b 4 1 < 2) && decide (leAt b 5 1 < 64) && decide (1 ≤ leAt b 6 1) && decide (leAt b 6 1 ≤ 8) &&
      zeros b 7 1 && decide (1 ≤ leAt b 8 4) && zeros b 12 20)
  else if r.ty = rtManager then
    !(r.key == 0 && n == 16 && (leAt b 0 1 == 1 || leAt b 0 1 == 2) && zeros b 1 1 && zeros b 8 8)
  else r.key != 0 || n % 16 != 0

/-- Header fields outside their range: KIND, MODE, RECORD_COUNT, reserved bits and, in a base, BASE_DIGEST (R34). -/
def headerFieldBad (b : List Byte) : Bool :=
  let mode := hMode b
  decide (1 < hKind b) || (if hKind b = 0 then mode != 0 || leNat (hBaseDigest b) != 0 else mode == 0 || decide (5 < mode)) ||
  decide (2 ≤ hFlags b) || decide (65535 < hCount b) || !zeros b 0x0A 2 || !zeros b 0x80 0x40

/-! ### Checks that need the whole configuration -/

/-- The configuration that an accepted image leaves (R53, R58, R59, R672): operation 0 base load, 1 overlay load,
2 revert. -/
def cfgAfter (c : Cfg) (op mode : Nat) (rs : List ImgRec) (scope : Nat) : Cfg :=
  let mine := fun p => bit scope p && formedIn c.base p
  let rest := c.modeOf.filter fun x => !mine x.1
  if op = 0 then
    { c with base := rs, mode := [], modeOf := [], mgr := [], fences := allFences rs, leftOut := allFences rs }
  else if op = 1 then
    if mode = 4 then { c with mgr := rs }
    else { c with mode := rs, modeOf := rest ++ (upTo 64 mine).map fun p => (p, mode, rs) }
  else { c with mode := [], modeOf := rest }

/-- A signature or channel in two partitions (0x0C): the index of the later PARTITION record. -/
def partitionOverlap (rs : List ImgRec) : Option Nat :=
  (List.range rs.length).find? fun i =>
    match rs[i]? with
    | some r => r.ty == rtPartition && (rs.take i).any fun q => q.ty == rtPartition &&
        (leAt q.body 0 16 &&& leAt r.body 0 16 != 0 || leAt q.body 16 64 &&& leAt r.body 16 64 != 0)
    | none => false

/-- The index of a base's RANKS record, for the errors that name it. -/
def ranksIdx (rs : List ImgRec) : Nat := (rs.findIdx? fun r => r.ty == rtRanks).getD 0xFFFF

/-- The length of a record's body, 0 where there is none. -/
def bodyLen (r : Option ImgRec) : Nat :=
  match r with
  | some x => x.body.length
  | none => 0

/-- RANK_INVALID of a base (0x14), with the record that it names: the second RANKS record, the RANKS record, or the ROUTES
record of a wrong length. -/
def rankInvalid (rs : List ImgRec) : Option Nat :=
  let at_ := upTo rs.length fun i => (rs[i]?.map ImgRec.ty) == some rtRanks
  let r := firstRec rs rtRanks
  let n := recNat r 8 2 0
  if 1 < at_.length then at_[1]?
  else if r.isSome && (decide (n ≤ recNat r 10 2 0) || bodyLen r != 16 + 8 * n ||
    decide (1 < (upTo n fun k => bit (rankFlags r k) 1).length) ||
    (upTo n fun k => bit (rankFlags r k) 1 && !bit (rankFlags r k) 0) != []) then some (ranksIdx rs)
  else rs.findIdx? fun x => x.ty == rtRoutes && x.body.length != 8 * n

/-- Blocks of queues or tallies over the limit in all: the record named is that of the partition, in ascending order, with
which the total first passes the limit, or the last such record before it where that partition has none (R68; DESIGN CHOICE,
log 100). -/
def overcommit (rs : List ImgRec) (ty limit : Nat) (cost : Nat → Nat) : Option Nat :=
  let ps := formedList rs
  (ps.find? fun p => decide (limit < listSum ((ps.filter (· ≤ p)).map cost))).map fun p =>
    ((upTo rs.length fun i => match rs[i]? with
      | some r => r.ty == ty && decide (r.key ≤ p)
      | none => false).getLast?).getD 0xFFFF

/-- A partner that is the rank itself, out of range or not mutual (0x16). -/
def partnerInvalid (r : Option ImgRec) : Bool :=
  let n := recNat r 8 2 0
  r.isSome && (List.range n).any fun k =>
    let x := rankPartner r k
    x == k || decide (n ≤ x) || rankPartner r x != k

/-- Two partners with equal FEED while FEED_OVERRIDE is 0 (0x17). -/
def partnerSameFeed (r : Option ImgRec) : Bool :=
  r.isSome && !bit (recNat r 12 2 0) 0 && (List.range (recNat r 8 2 0)).any fun k =>
    rankFeed r k == rankFeed r (rankPartner r k)

/-- The partition whose register an offset is: its PART_ page, its MON_ window, its registers in TRN_ and RED_
(R63). -/
def regPart (off : Nat) : Option Nat :=
  if 0x01500000 ≤ off && off < 0x01900000 then some ((off - 0x01500000) / 0x10000)
  else if 0x00800000 ≤ off && off < 0x00C00000 then some ((off - 0x00800000) / 0x10000)
  else if 0x00F01000 ≤ off && off < 0x00F03000 then some ((off - 0x00F01000) / 0x80)
  else if 0x00F04000 ≤ off && off < 0x00F05000 then some ((off - 0x00F04000) / 0x40)
  else if 0x01001000 ≤ off && off < 0x01003000 then some ((off - 0x01001000) / 0x80)
  else none

/-- The entries of a REG_INIT body: offset and value (R47). -/
def regEntries (r : ImgRec) : List (Nat × Nat) :=
  (List.range (r.body.length / 16)).map fun i => (leAt r.body (16 * i) 8, leAt r.body (16 * i + 8) 8)

/-- A REG_INIT entry that names no register, one outside the permitted blocks, one without RW or RWL fields, or with a
bit outside them (R47). -/
def regTargetBad (e : Nat × Nat) : Bool :=
  let o := e.1
  let inBlock := decide (o < 0x100000) || (decide (0x400000 ≤ o) && decide (o < 0xC00000)) ||
    (decide (0xD00000 ≤ o) && decide (o < 0x1900000))
  match regAt o with
  | some r => !inBlock || (r.rw ||| r.rwl) == 0 || (e.2 ||| (r.rw ||| r.rwl)) != (r.rw ||| r.rwl)
  | none => true

/-- A record of an overlay that reaches outside the scope (R63). -/
def Dev.scopeBad (d : Dev) (scope : Nat) (r : ImgRec) : Bool :=
  let full := (formedList d.eng.cfg.base).all (bit scope)
  if r.ty = rtFabric || r.ty = rtManager then !full
  else if r.ty = rtQuireRole || r.ty = rtSigMode then
    if r.key = allKey then !full
    else match d.sigPart r.key with
      | some p => !bit scope p
      | none => true
  else if r.ty = rtTraining then !bit scope r.key
  else if r.ty = rtRegInit then
    !full && (regEntries r).any fun e => match regPart e.1 with
      | some p => !bit scope p
      | none => true
  else false

/-- A formed partition all of whose quires that the image leaves in use are fenced by the FENCE records (0x13). -/
def fenceConflict (d : Dev) (fences : List Nat) (ps : List Nat) : Bool :=
  ps.any fun p =>
    let qs := upTo 1536 fun n => d.quirePart n == some p && d.roleByte n != 2
    qs != [] && qs.all fun n => fences.contains (unitQuire n) || fences.contains (unitSig (n / 12))

/-- The first error of codes 0x07 to 0x1C, with the index of the record (0xFFFF for the header), in code order. DESIGN CHOICE
(log 100): FENCE_CONFLICT names the first FENCE or QUIRE_ROLE record, else 0xFFFF; MANAGER_STRAP of an overlay without a MANAGER
record names 0xFFFF. -/
def Dev.imageError (d : Dev) (b : List Byte) (rs : List ImgRec) (scope : Nat) : Option (Nat × Nat) :=
  let kind := hKind b
  let mode := hMode b
  let base := kind == 0
  let cfg := cfgAfter d.eng.cfg (if base then 0 else 1) mode rs scope
  let da := { d with eng := { d.eng with cfg := cfg } }
  let ps := formedList rs
  let rk := firstRec rs rtRanks
  let dr := d.ranks
  let own := recNat dr 10 2 0
  let ownFlags := rankFlags dr own
  let baseDigest := ((List.range 4).map fun i => leBytes 8 (d.reg (CFG_BASE_DIGEST i)).toNat).flatten
  let mgrIdx := rs.findIdx? fun r => r.ty == rtManager
  let idx := fun (b : Bool) (i : Nat) => if b then some i else none
  let checks : List (Nat × Option Nat) := [
    (0x07, idx (!base && (!d.flag CFG_ACTIVE_IMAGE_LOADED || hBaseDigest b != baseDigest)) 0xFFFF),
    (0x08, firstBad rs fun r => !known r && !bit r.flags 0),
    (0x09, orderBad 0 rs),
    (0x0A, firstBad rs fun r => !allowed kind mode r),
    (0x0B, if headerFieldBad b then some 0xFFFF else firstBad rs fieldBad),
    (0x0C, if base then partitionOverlap rs else none),
    (0x0D, if base then firstBad rs fun r => r.ty == rtPartition &&
        (upTo 512 fun c => bit (leAt r.body 16 64) c && !(allFences rs).contains (unitChan c)) == [] else none),
    (0x0E, if base then (overcommit rs rtQueues 8192 fun p => listSum (queueBlocks rs p)).or (firstBad rs fun r =>
        r.ty == rtQueues && ps.contains r.key && (kindCount rs r.key 1 == 0 || kindCount rs r.key 2 == 0)) else none),
    (0x0F, if base then overcommit rs rtTallies 256 (tallyBlocks rs) else none),
    (0x10, firstBad rs fun r => r.ty == rtPools && (leAt r.body 0 8 % 2097152 != 0 || leAt r.body 8 8 % 2097152 != 0 ||
        decide (2 ^ 38 < leAt r.body 0 8 + leAt r.body 8 8))),
    (0x11, firstBad rs fun r => r.ty == rtQuireRole && (List.range 12).any fun i =>
        decide (2 < leAt r.body i 1) || (leAt r.body i 1 == 1 && decide (i < 4))),
    (0x13, idx (fenceConflict da (if base then allFences rs else allFences d.eng.cfg.base)
        (if base then ps else (formedList d.eng.cfg.base).filter (bit scope)))
      ((rs.findIdx? fun r => r.ty == rtFence || r.ty == rtQuireRole).getD 0xFFFF)),
    (0x14, if base then rankInvalid rs
      else match mgrIdx with
        | some i => idx (d.jobManagerRank != some (recNat (firstRec rs rtManager) 2 2 0)) i
        | none => none),
    (0x15, idx (base && rk.isSome && rankFeed rk (recNat rk 10 2 0) != d.eng.pwr.straps.feed) (ranksIdx rs)),
    (0x16, idx (base && partnerInvalid rk) (ranksIdx rs)),
    (0x17, idx (base && partnerSameFeed rk) (ranksIdx rs)),
    (0x18, idx (!base && mode == 4 && (!d.eng.pwr.straps.mgr || !bit ownFlags 0 ||
          (recNat (firstRec rs rtManager) 0 1 0 == 2 && !bit ownFlags 1) ||
          (recNat (firstRec rs rtManager) 0 1 0 == 1 && bit ownFlags 1))) (mgrIdx.getD 0xFFFF)),
    (0x19, match mgrIdx with
      | some i => idx (decide (recNat (firstRec rs rtManager) 4 4 0 * 1000 < 4 * d.retryBudget)) i
      | none => none),
    (0x1A, firstBad rs fun r => r.ty == rtTraining && (leAt r.body 4 1 == 1) != (mode == 5)),
    (0x1B, if base then none else firstBad rs (d.scopeBad scope)),
    (0x1C, firstBad rs fun r => r.ty == rtRegInit && (regEntries r).any regTargetBad)]
  checks.findSome? fun c => c.2.map fun i => (c.1, i)

end Sys2Proof.Machine
end

