-- ==== Sys2Proof/Machine/Images.lean ====
section
/-! DEFINITION. The image and microcode loader (02, 04): fetching, checking, applying, switching, reverting, sealing,
and what each leaves. -/

namespace Sys2Proof.Machine

/-! ### Control writes (R55, R62, R72, R109) -/

/-- A write to CFG_IMAGE_CTRL or CFG_UCODE_CTRL that is ignored (R55, R109). -/
def ignoredCtrl : Act := Act.count CFG_IMAGE_COUNT_IGNORED_CTRL 1

/-- PHASE is READY and no image operation runs. -/
def Dev.loaderIdle (d : Dev) : Bool := d.fld PWR_BOOT_STATUS_PHASE == 7 && d.fld CFG_IMAGE_STATUS_STATE == 0

/-- An operation starts: its fields replace the last operation's; UNQUALIFIED stays that of the last accepted base
(R72). DESIGN CHOICE (log 101): CFG_OVERLAY_SCOPE is sampled here, when LOAD or REVERT is written. -/
def beginOp (op : Nat) (state : Nat) : Act := .dyn fun d =>
  .all [Act.set CFG_IMAGE_STATUS_ERROR 0, Act.set CFG_IMAGE_STATUS_ERROR_RECORD 0,
    Act.set CFG_IMAGE_STATUS_FENCED_DURING_LOAD 0,
    .eng fun e => { e with img :=
      { op := op, bytes := [], recs := [], quietAtLoad := d.quietForBase, scope := d.fld CFG_OVERLAY_SCOPE_PARTS,
        newFences := [], resetParts := [], fault := 0 } },
    setState state]

/-! ### Held partition resets (R92, R93, R95) -/

/-- The packets that the rank partition sends without a task: mirrors and fills. -/
def ofRank (k : Pkt) : Bool := k.kind == pkMirror || k.kind == pkFillData

/-- An unacknowledged packet of a partition: a task of it sent it, or it is the rank partition's own traffic. -/
def Dev.sentBy (d : Dev) (p : Nat) (x : E2E) : Bool := d.idPart x.task == some p || (d.holdsRank p && ofRank x.pkt)

/-- A packet that waits for a port or for its turn on one is an outstanding send of a partition (R93): one of its
unacknowledged packets or requests, a reduction packet of the rank partition, or a SERVICE packet of it. -/
def Dev.leavesFor (d : Dev) (p : Nat) (k : Pkt) : Bool :=
  (if k.bySlot then k.src == d.eng.pwr.straps.slot else d.hasRanks && k.src == d.ownRank) &&
  ((windowed k.kind && d.eng.fab.e2e.any fun x =>
      d.sentBy p x && x.pkt.bySlot == k.bySlot && x.pkt.dest == k.dest && x.pkt.seq == k.seq) ||
    (d.eng.fab.reqs.any fun x => x.part == p && x.pkt.kind == k.kind && x.pkt.dest == k.dest && x.pkt.data == k.data) ||
    (k.kind == pkReduce && d.holdsRank p) || (k.kind == pkService && k.srcPart == p))

/-- What a partition reset clears at once (R92, R93, R249, R463). -/
def clearPartition (p : Nat) : Act := .dyn fun d =>
  let base := d.eng.cfg.base
  let mine := fun n => d.quirePart n == some p
  let q0 := firstQueue base p
  let t0 := firstTally base p
  .all [
    Act.when (d.holdsRank p) (.seq (report fkPartitionReset p 0 []) abortFill),
    clearQuires mine, Act.each (upTo 1536 mine) clearThr,
    .eng fun e => { e with
      tasks := e.tasks.filter fun t => t.part != p
      svcs := e.svcs.filter fun x => d.idPart x.task != some p
      axl := { e.axl with reqWait := e.axl.reqWait.filter fun w => d.idPart w.task != some p }
      inbox := e.inbox.filter fun k => k.part != p
      rings := e.rings.filter fun kv => d.queuePart kv.1 != some p
      proof := { e.proof with
        jobOpened := e.proof.jobOpened.filter (· != p)
        commits := e.proof.commits.filter fun w => d.idPart w.task != some p }
      fab := { e.fab with
        e2e := e.fab.e2e.filter fun x => !d.sentBy p x
        unrouted := e.fab.unrouted.filter fun k => !d.leavesFor p k
        own := e.fab.own.filter fun k => !d.leavesFor p k
        ports := e.fab.ports.foldl (fun s x => Store.put (fun _ => Port.fresh) x.1
          { x.2 with wait := x.2.wait.filter fun k => !d.leavesFor p k } s) []
        reqs := e.fab.reqs.filter fun x => x.part != p
        blocked := e.fab.blocked.filter fun x => d.idPart x.2 != some p && !(d.holdsRank p && ofRank x.1)
        hold := e.fab.hold.filter fun h => !(if h.pkt.bySlot then h.pkt.part == p else d.holdsRank p)
        wins := e.fab.wins.filter fun w => !(if w.bySlot then p == 0 else d.holdsRank p) }
      dune := { e.dune with
        versions := e.dune.versions.filter fun v => v.part != p
        folios := e.dune.folios.filter fun x => keyPart x.key != p
        closing := e.dune.closing.filter fun x => x.1 != p
        mirrors := if d.holdsRank p then [] else e.dune.mirrors
        fresh := if d.holdsRank p then [] else e.dune.fresh } },
    abandonFrozen p,
    updRed fun r =>
      let r' : Red := if d.holdsRank p then { Red.init0 with sends := r.sends, trees := r.trees, drop := r.drop, spare := r.spare }
        else r
      { r' with
        sends := r'.sends.filter fun x => x.part != p
        trees := r'.trees.filter fun t => t.part != p },
    .forget (QUE_BASE q0) (QUE_BASE (q0 + queueCount base p)),
    .forget (TLY_VALUE t0) (TLY_VALUE (t0 + tallyCount base p)),
    .eng fun e => { e with tcyc := { e.tcyc with
      adds := e.tcyc.adds.filter fun x => x.1 < t0 || decide (t0 + tallyCount base p ≤ x.1) } },
    .forget (TRN_CFG p) (TRN_CFG (p + 1)), .forget (TRN_PROOF_SLOT p 0) (TRN_PROOF_SLOT (p + 1) 0),
    .forget (RED_LEAF_BASE p) (RED_LEAF_BASE (p + 1)), .forget (MON_PART_CTRL p) (MON_PART_CTRL (p + 1)), hangReset p,
    recallLines fun k => keyPart k == p, drawKey p]

/-- The partition resets that were held take effect when STATE returns to IDLE (R95). -/
def releaseResets : Act := .dyn fun d =>
  .all [.eng fun e => { e with pwr := { e.pwr with heldResets := [] } },
    Act.each d.eng.pwr.heldResets fun p => if d.formed p then clearPartition p else .skip]

/-! ### The end of an operation (R56) -/

/-- IMAGE_DONE with the final status (R56, R197). -/
def imageDone (op : Nat) (digest : List Byte) : Act := .dyn fun d =>
  postHost 2 [BitVec.ofNat 8 op] (leBytes 4 (d.reg CFG_IMAGE_STATUS).toNat) digest

/-- A rejected or abandoned operation leaves the configuration as it was (R48, R61, R62, R68). -/
def reject (error idx : Nat) : Act := .dyn fun d =>
  .all [Act.set CFG_IMAGE_STATUS_ERROR error, Act.set CFG_IMAGE_STATUS_ERROR_RECORD idx, setState 0,
    Act.count CFG_IMAGE_COUNT_REJECTS 1,
    imageDone (if d.eng.img.op = 0 && d.fld CFG_IMAGE_STATUS_STATE != 4 && hKind d.eng.img.bytes == 1 then 1
      else d.eng.img.op) [],
    releaseResets]

/-- The device seals (R64). -/
def sealNow : Act := .dyn fun d =>
  if d.flag CFG_SEAL_STATUS_SEALED then .skip
  else .all [Act.set CFG_SEAL_STATUS_SEALED 1, extend 5 0x50 []]

/-! ### Fetch, verify, validate -/

/-- The end of a microcode load: UCODE_DONE (R119, R197). -/
def ucodeDone (error : Nat) (digest : List Byte) : Act :=
  .all [Act.set CFG_UCODE_STATUS_ERROR error, setState 0,
    .dyn fun d => postHost 3 [] (leBytes 4 (d.reg CFG_UCODE_STATUS).toNat) digest, releaseResets]

/-- The fetched bytes are poison: what does not arrive cannot match its digest. DESIGN CHOICE (log 110): the spec names no
error for it. -/
def fetchFails : Act := .dyn fun d =>
  Act.when (d.fld CFG_IMAGE_STATUS_STATE == 1)
    (if d.eng.img.op = 3 then ucodeDone 0x02 [] else reject ieDigest 0xFFFF)

/-- The reads of an image or of a microcode file, which belong to no partition (R48, R119, R150), as one request; DESIGN
CHOICE (log 110). While the link is down they complete at once as poisoned data (R164, R166). -/
def fetchRead (addr : Nat) : Act := .dyn fun d =>
  if d.axlUp then axlReq { Msg.mk0 opRdUc with addr := addr, len := 64 } .fetch 0 else fetchFails

/-- A fetch has its last byte: its TAG is free. -/
def fetched : Act := .eng fun e =>
  { e with axl := Axl.issueAll { e.axl with reqs := e.axl.reqs.filter fun r => r.why != .fetch } }

/-- LOAD (R48, R49). -/
def imageLoad : Act := .dyn fun d =>
  if d.loaderIdle then .seq (beginOp 0 1) (fetchRead (d.fld CFG_IMAGE_ADDR_ADDR)) else ignoredCtrl

/-- SEAL (R64). -/
def sealCtrl : Act := .dyn fun d => if d.loaderIdle then sealNow else ignoredCtrl

/-- REVERT (R59, R61). -/
def revertCtrl : Act := .dyn fun d => if d.loaderIdle then beginOp 2 4 else ignoredCtrl

/-- CANCEL (R62). DESIGN CHOICE (log 104): ERROR_RECORD reads 0xFFFF. -/
def cancelCtrl : Act := .dyn fun d =>
  if d.fld PWR_BOOT_STATUS_PHASE == 7 && d.fld CFG_IMAGE_STATUS_STATE == 4 then reject ieCancelled 0xFFFF
  else ignoredCtrl

/-- A write of CFG_IMAGE_CTRL: one bit acts, several are ignored and counted; none changes nothing but the count of a
write that comes too early or while an operation runs (R55, R72, R109). -/
def imageCtrl (v : Nat) : Act := .dyn fun d =>
  match v % 16 with
  | 0 => Act.when (!d.loaderIdle) ignoredCtrl
  | 1 => imageLoad
  | 2 => sealCtrl
  | 4 => revertCtrl
  | 8 => cancelCtrl
  | _ => ignoredCtrl

/-- IMAGE_FETCHED: the bytes have come over AXL; more than 16 MiB are not read on (R48). -/
def actImageFetched (bs : List Byte) : Act := .dyn fun d =>
  Act.when (d.fld CFG_IMAGE_STATUS_STATE == 1 && d.eng.img.op == 0)
    (.all [.eng fun e => { e with img := { e.img with bytes := fit (min (d.fld CFG_IMAGE_LEN_LEN) 16777217) bs } },
      fetched, setState 2])

/-- IMAGE_VERIFIED (R34, R48, R616). -/
def actImageVerified : Act := .dyn fun d =>
  let b := d.eng.img.bytes
  Act.when (d.fld CFG_IMAGE_STATUS_STATE == 2 && d.eng.img.op == 0)
    (match d.headerError b b.length with
     | some err => .all [Act.when (err == ieSignature) (Act.add SEC_COUNT_VERIFY_FAILS 1), reject err 0xFFFF]
     | none => .all [.eng fun e => { e with img :=
         { e.img with recs := (parseRecs (hCount b) (hBody b)).getD [] } }, setState 3])

/-- IMAGE_VALIDATED (R49, R51, R61, R68): the first error rejects; a base goes to PREPARE, where the recall begins and
an ARMED snapshot is cancelled; an overlay waits for its scope. DESIGN CHOICE (log 104): with BUSY, ERROR_RECORD reads 0xFFFF. -/
def actImageValidated : Act := .dyn fun d =>
  let i := d.eng.img
  let b := i.bytes
  let base := hKind b == 0
  Act.when (d.fld CFG_IMAGE_STATUS_STATE == 3)
    (match d.imageError b i.recs i.scope with
     | some e => reject e.1 e.2
     | none =>
       if base && !i.quietAtLoad then reject ieBusy 0xFFFF
       else .all [
         Act.count CFG_IMAGE_COUNT_SKIPPED (i.recs.filter fun r => !known r).length,
         .eng fun e => { e with img := { e.img with op := hKind b } },
         if base then .all [setState 5, hangAbandonAll, Act.when (d.fld RES_SNAP_STATUS_STATE == 1) (snapState 0),
             recallLines fun _ => true]
         else setState 4])

/-! ### PREPARE -/

/-- PREPARE_DONE: the host-held lines are back, memory and quires are zero (R51, R52), and APPLY starts. -/
def actPrepareDone : Act := .dyn fun d =>
  Act.when (d.fld CFG_IMAGE_STATUS_STATE == 5 && d.eng.axl.recalls == [])
    (.all [zeroAll, clearQuires fun _ => true,
      .eng fun e => { e with axl := { e.axl with filter := [], home := [] } }, setState 6])

/-! ### APPLY -/

/-- The RW and RWL bits of a register are set from a REG_INIT entry; CFG_ and the other blocks keep their range rules
in the register's own write (R47, R66). -/
def regInitEntry (write : Nat → Nat → Act) (e : Nat × Nat) : Act := write e.1 e.2

/-- The digest words of a registers group. -/
def digestWords (off : Nat) (dg : List Byte) : Act :=
  Act.each (List.range 4) fun i => .reg (off + 8 * i) (BitVec.ofNat 64 (leAt dg (8 * i) 8))

def Dev.digestAt (d : Dev) (off : Nat) : List Byte :=
  ((List.range 4).map fun i => leBytes 8 (d.reg (off + 8 * i)).toNat).flatten

/-- JOB_CHECK: the first 8 bytes of SM3 over RANKS with OWN_RANK 0, FABRIC, and TRAINING in effect (R557). -/
def Dev.jobCheck (d : Dev) : Nat :=
  let body := fun r : Option ImgRec => match r with
    | some x => x.body
    | none => []
  let ranks := body d.ranks
  let rk := ranks.take 10 ++ (if ranks.length < 12 then [] else [0, 0]) ++ ranks.drop 12
  leAt (sm3 (rk ++ body d.fabricRec ++ body (d.training (d.rankPart.getD 0)))) 0 8

/-- JOIN to the job manager, after each load or switch that leaves RANKS and a TRAINING record in force for the rank
partition in its scope (R557). -/
def sendJoin (scope : Nat) : Act := .dyn fun d =>
  match d.jobManagerRank, d.rankPart with
  | some jm, some p => Act.when (bit scope p && d.trainingActive p) (fabSend { pkt0 pkJoin with
      dest := jm
      data := leBytes 8 d.jobId ++ leBytes 2 d.ownRank ++ leBytes 2 (d.fld FAB_INCARNATION_VALUE) ++ [0, 0, 0, 0] ++
        leBytes 8 d.jobCheck } 0)
  | _, _ => .skip

/-- The TRAINING effect on the partitions of a scope (R421). -/
def trainingAll (ps : List Nat) : Act := Act.each ps trainingEffect

/-- The lowest FAB_E2E.TIMEOUT that the budget in force allows (FAB_E2E, 17). -/
def Dev.e2eFloor (d : Dev) : Nat := ceilDiv (4 * d.retryBudget * 12) 10

/-- The engine state that a base load starts anew, beside quires and memory. -/
def clearForBase : Act := .all [
  .eng fun e => { e with
    rings := []
    tasks := []
    proof := { jobOpened := [], commits := [] }
    fab := { e.fab with wins := [], hold := [] }
    red := Red.init0
    mgr := Mgr.init
    svcs := []
    inbox := []
    resil := { bulk := [], spareInc := 0, armed := 0 }
    tcyc := { e.tcyc with adds := [] } },
  Act.set FAB_STATUS_JOINED 0, Act.set RES_STATUS_MIRROR_SUSPENDED 0, fillState 0,
  .forget 0x04000000 0x06000000, .forget 0x01900000 0x01A00000, .forget 0x00F00000 0x01000000,
  .forget (RED_LEAF_BASE 0) (RED_LEAF_BASE 64)]

/-- APPLY of a base (R47, R53, R64, R66, R151, R205, R421, R557, R615, R619). -/
def applyBase (write : Nat → Nat → Act) : Act := .dyn fun d =>
  let i := d.eng.img
  let b := i.bytes
  let had := d.flag CFG_ACTIVE_IMAGE_LOADED
  let hadMode := d.fld CFG_ACTIVE_IMAGE_MODE != 0
  let hadMgr := d.flag CFG_ACTIVE_IMAGE_MANAGER
  let wasSealed := d.flag CFG_SEAL_STATUS_SEALED
  let lockNow := !d.flag SEC_STATUS_SIGNERS_LOCKED
  let modeDg := d.digestAt (CFG_MODE_DIGEST 0)
  let mgrDg := d.digestAt (CFG_MGR_DIGEST 0)
  let ps := formedList i.recs
  .all [clearForBase,
    .eng fun e =>
      let c := cfgAfter e.cfg 0 0 i.recs i.scope
      { e with cfg := { c with fences := mergeArrays (c.fences ++ e.img.newFences) } },
    Act.each (List.range 32) peerJoin,
    .forget (AXL_HWIN_BASE 0) (AXL_HWIN_BASE 1024),
    .reg (AXL_HWIN_BASE 0) 0, .reg (AXL_HWIN_LIMIT 0) 0,
    .dyn fun d => Act.set CFG_HOST_EVENT_QUEUE_QUEUE
      (((formedList d.eng.cfg.base).head?.bind fun p => d.eventRing p 0).getD 0),
    Act.set CFG_SEAL_STATUS_SEALED 0, Act.set CFG_ACTIVE_IMAGE_LOADED 1, Act.set CFG_ACTIVE_IMAGE_MODE 0,
    Act.set CFG_ACTIVE_IMAGE_MANAGER 0, digestWords (CFG_BASE_DIGEST 0) (hConfigDigest b),
    digestWords (CFG_MODE_DIGEST 0) [], digestWords (CFG_MGR_DIGEST 0) [],
    .dyn fun d => Act.setB CFG_IMAGE_STATUS_UNQUALIFIED (decide (4096 < d.rankCount)),
    .dyn fun d => Act.when (decide (d.fld FAB_E2E_TIMEOUT < d.e2eFloor)) (Act.set FAB_E2E_TIMEOUT d.e2eFloor),
    Act.each ps drawKey,
    trainingAll ps,
    Act.each (i.recs.filter fun r => r.ty == rtRegInit) fun r =>
      Act.each (regEntries r) (regInitEntry write),
    Act.when lockNow (.all [Act.set SEC_STATUS_SIGNERS_LOCKED 1, extend 2 0x21 []]),
    Act.when wasSealed (extend 5 0x51 []),
    Act.when (had && hadMode) (extend 4 0x42 modeDg), Act.when (had && hadMgr) (extend 4 0x42 mgrDg),
    extend 3 0x30 (hConfigDigest b),
    Act.when (bit (hFlags b) 0) sealNow,
    sendJoin (2 ^ 64 - 1)]

/-- The REG_INIT record of a list of records. -/
def initEntries (rs : List ImgRec) : List (Nat × Nat) :=
  ((rs.filter fun r => r.ty == rtRegInit).map regEntries).flatten

/-- The base's REG_INIT entries that come into force again at a switch (R58, R672; log 25): the overlay that goes from the
scope has a REG_INIT record and the new one has none, so that the base's record is the one in force. An entry of a partition's
register is set where that partition's overlay goes, any other entry where the scope holds every formed partition. -/
def Dev.entriesBack (d : Dev) (scope : Nat) (new : List ImgRec) : List (Nat × Nat) :=
  let c := d.eng.cfg
  let mine := (formedList c.base).filter (bit scope)
  let had := fun p => initEntries (d.modeOf p).2 != []
  if initEntries new != [] then []
  else (initEntries c.base).filter fun e => match regPart e.1 with
    | some p => mine.contains p && had p
    | none => (formedList c.base).all (bit scope) && mine.any had

/-- APPLY of an overlay or of a revert: the configuration of the scope, the TRAINING records that take effect, then the
REG_INIT entries in force where they change (R47, R58, R59, R66, R421, R672). -/
def applySwitch (write : Nat → Nat → Act) : Act := .dyn fun d =>
  let i := d.eng.img
  let b := i.bytes
  let mode := if i.op = 2 then 0 else hMode b
  let scope := (formedList d.eng.cfg.base).filter (bit i.scope)
  .all [.eng fun e => { e with cfg := cfgAfter e.cfg i.op mode i.recs i.scope },
    if i.op = 2 then .all [Act.set CFG_ACTIVE_IMAGE_MODE 0, digestWords (CFG_MODE_DIGEST 0) []]
    else if mode = 4 then .all [Act.set CFG_ACTIVE_IMAGE_MANAGER 1, digestWords (CFG_MGR_DIGEST 0) (hConfigDigest b)]
    else .all [mayRecord (Act.set CFG_ACTIVE_IMAGE_MODE mode), digestWords (CFG_MODE_DIGEST 0) (hConfigDigest b)],
    trainingAll scope,
    Act.each (initEntries i.recs ++ (if mode = 4 then [] else d.entriesBack i.scope i.recs)) (regInitEntry write)]

/-- OVERLAY_QUIESCED: every partition in scope is at a quiesce point, or has been reset during the wait; the switch is
applied at once (R61, R95). -/
def overlayQuiesced (write : Nat → Nat → Act) : Act := .dyn fun d =>
  let i := d.eng.img
  let ready := (formedList d.eng.cfg.base).all fun p => !bit i.scope p || d.quiesced p || i.resetParts.contains p
  Act.when (d.fld CFG_IMAGE_STATUS_STATE == 4 && ready) (.all [setState 6, applySwitch write])

/-- OVERLAY_TIMEOUT (R61): a limit of 0 waits for ever. DESIGN CHOICE (log 104): ERROR_RECORD reads 0xFFFF. -/
def actOverlayTimeout : Act := .dyn fun d =>
  Act.when (d.fld CFG_IMAGE_STATUS_STATE == 4 && d.fld CFG_OVERLAY_TIMEOUT_TCYCLES != 0) (reject ieTimeout 0xFFFF)

/-- APPLY_DONE: the configuration takes effect and the operation ends (R53, R54, R56). The register write is handed in,
so that REG_INIT entries follow the rules of each register. -/
def applyDone (write : Nat → Nat → Act) : Act := .dyn fun d =>
  let i := d.eng.img
  Act.when (d.fld CFG_IMAGE_STATUS_STATE == 6 && i.op != 3)
    (.all [if i.op = 0 then applyBase write
      else .all [if i.op = 2 then extend 4 0x41 [] else extend 4 0x40 (hConfigDigest i.bytes),
        sendJoin i.scope],
      Act.setB CFG_IMAGE_STATUS_FENCED_DURING_LOAD (i.newFences != []),
      setState 0, Act.count CFG_IMAGE_COUNT_LOADS 1,
      imageDone i.op (if i.op = 2 then [] else hConfigDigest i.bytes), releaseResets])

/-! ### Microcode (R116 to R119) -/

/-- LOAD of CFG_UCODE_CTRL (R109, R116, R117). -/
def ucodeLoad : Act := .dyn fun d =>
  if !d.loaderIdle then ignoredCtrl
  else if 4194304 < d.fld CFG_UCODE_LEN_LEN then ucodeDone 0x01 []
  else if !d.quietForBase then ucodeDone 0x04 []
  else if d.flag CFG_SEAL_STATUS_SEALED then ucodeDone 0x05 []
  else .seq (beginOp 3 1) (fetchRead (d.fld CFG_UCODE_ADDR_ADDR))

/-- A write of CFG_UCODE_CTRL (R109). -/
def ucodeCtrl (v : Nat) : Act := .dyn fun d =>
  if bit v 0 then ucodeLoad else Act.when (!d.loaderIdle) ignoredCtrl

/-- UCODE_FETCHED: the file has come over AXL (R119). -/
def actUcodeFetched (bs : List Byte) : Act := .dyn fun d =>
  Act.when (d.fld CFG_IMAGE_STATUS_STATE == 1 && d.eng.img.op == 3)
    (.all [.eng fun e => { e with img := { e.img with bytes := fit (d.fld CFG_UCODE_LEN_LEN) bs } }, fetched,
      setState 2])

/-- The error of a microcode file, in the order MAGIC, length, digest, signature (04, R616). -/
def Dev.ucodeError (d : Dev) (b : List Byte) : Nat :=
  if hMagic b != 0x55434F44 || hKind b != 2 then 0x06
  else if b.length != 256 + hBodyLen b then 0x01
  else if hBodyDigest b != sm3 (hBody b) || hConfigDigest b != hBodyDigest b then 0x02
  else if !d.verifies (hKind b) (hSigner b) (b.take 0xC0) (hSignature b) then 0x03
  else 0

/-- UCODE_SWITCH: the file is verified; STATE steps to APPLY and the switch is atomic, or the running microcode stays in
place (R117 to R119). -/
def actUcodeSwitch : Act := .dyn fun d =>
  let b := d.eng.img.bytes
  let err := d.ucodeError b
  Act.when (d.eng.img.op == 3 && d.fld CFG_IMAGE_STATUS_STATE == 2)
    (if err != 0 then .all [Act.when (err == 3) (Act.add SEC_COUNT_VERIFY_FAILS 1), ucodeDone err []]
     else .all [setState 6, Act.set CFG_UCODE_STATUS_SOURCE 1, Act.count CFG_UCODE_STATUS_LOADS 1,
       digestWords (CFG_UCODE_DIGEST 0) (hConfigDigest b), extend 1 0x10 (hConfigDigest b),
       ucodeDone 0 (hConfigDigest b)])

end Sys2Proof.Machine
end

