-- ==== Sys2Proof/Machine/Install.lean ====
section
/-! DEFINITION. Decisions at a rank (13, 14, 16, 17, 18): the fields of a DECISION, its installation in the order of R426
with everything that goes with it, SENDS_CLOSED and HALT, and the relay of a board manager. -/

namespace Sys2Proof.Machine

/-! ### Roles (R555, R556) -/

/-- The job-manager role is active. -/
def Dev.isJobMgr (d : Dev) : Bool := d.hasRanks && d.tier == 2 && d.jobManagerRank == some d.ownRank

/-- The board-manager role is active; the job manager is its own board's. -/
def Dev.isBoardMgr (d : Dev) : Bool := d.hasRanks && decide (1 ≤ d.tier) && d.boardManagerOf d.ownRank == some d.ownRank

/-! ### DECISION (R559) -/

def dcStep (b : List Byte) : Nat := leAt b 0 4
def dcAttempt (b : List Byte) : Nat := leAt b 4 2
def dcKind (b : List Byte) : Nat := leAt b 6 1
def dcExp (b : List Byte) : Nat := leAt b 7 1
def dcNextStep (b : List Byte) : Nat := leAt b 8 4
def dcNextAttempt (b : List Byte) : Nat := leAt b 12 2
def dcClean (b : List Byte) : Nat := leAt b 16 4
def dcClosed (b : List Byte) : Nat := leAt b 20 4
def dcOpened (b : List Byte) : Nat := leAt b 24 4
def dcDrops (b : List Byte) : List Nat := (List.range (leAt b 14 2)).map fun i => leAt b (32 + 2 * i) 2


/-- The flags and counters of a decision (R424, R439). -/
def decisionEffects (p decision : Nat) : Act :=
  if decision = decCommit then Act.add (TRN_COUNT_A_COMMITS p) 1
  else if decision = decNonfinite then Act.raise (TRN_STATUS_NONFINITE p) (TRN_COUNT_A_NONFINITE p)
  else if decision = decLate then Act.add (TRN_COUNT_B_LATE_REPEATS p) 1
  else if decision = decFloor then
    .seq (Act.raise (TRN_STATUS_LS_FLOOR p) (TRN_COUNT_B_FLOORS p)) (Act.set (PART_CTRL_STOP p) 1)
  else .skip

/-- A rank installs a decision for its current attempt, the first INIT after its base load, partition reset or TRAINING
record, and on a spare the first decision of all (R427, R560, R593). -/
def Dev.installs (d : Dev) (p : Nat) (b : List Byte) : Bool :=
  if dcKind b = decInit then d.eng.red.init
  else d.eng.red.spare || (dcStep b, dcAttempt b) == d.tag p

/-- Step 1 of R426: the epoch commits or is discarded, and the next one opens (R442, R446). The decision that opens the first
one leaves OUTCOMES clear (R677). -/
def installEpoch (p : Nat) (b : List Byte) : Act := .dyn fun d =>
  .all [if !jobWide (dcClosed b) then .skip
      else if dcKind b = decCommit then commitEpoch p (dcClosed b) else discardEpoch p (dcClosed b),
    openJob p (dcOpened b),
    Act.when (d.eng.proof.jobOpened.contains p) (noteOutcome p (dcClosed b) (dcKind b == decCommit))]

/-- Step 2 of R426: the values that the decision carries (R560). -/
def installValues (p : Nat) (b : List Byte) : Act :=
  .all [Act.set (TRN_STEP_STEP p) (dcNextStep b), Act.set (TRN_STEP_ATTEMPT p) (dcNextAttempt b),
    Act.set (TRN_LS_EXP p) (dcExp b), Act.set (TRN_LS_CLEAN p) (dcClean b), decisionEffects p (dcKind b)]

/-! ### What follows an installation -/

/-- The attempt opens with its drop set: packets kept for another attempt are freed as STALE, its trees are abandoned, and
the gate starts from its tally's value (R514, R515, R519). -/
def openAttempt (p : Nat) (b : List Byte) : Act := .dyn fun d =>
  let tag := d.tag p
  let old := d.eng.red.sends.filter fun x => x.part == p && (x.step, x.attempt) != tag
  let gate := match d.relTally p (d.fld (RED_GATE_TALLY p)) with
    | some t => d.fld (TLY_VALUE_VALUE t)
    | none => 0
  .all [Act.each old fun x => .seq (Act.add (RED_COUNT_B_STALE p) 1) (freeSend x),
    updRed fun r => { r with
      drop := dcDrops b
      trees := r.trees.filter fun t => t.part != p || (t.step, t.attempt) == tag
      finals := r.finals.filter fun x => x.1 != p
      gate := gate, rankDone := false, closed := false, ownerDone := false, area := false, spare := false
      init := r.init && dcKind b != decInit },
    Act.set (RED_STATUS_POOL_WAIT p) 0]

/-- Mirrors and fills follow the drop set (R591, R597). -/
def followPartner : Act := .dyn fun d =>
  if d.eng.red.drop.contains d.partner then Act.when (!d.filling) suspendMirrors
  else .all [Act.set RES_STATUS_MIRROR_SUSPENDED 0,
    Act.when d.filling (.all [fillState 0, updResil fun r => { r with bulk := [] }, dropToPartner pkFillData])]

/-- The packets and requests of FABRIC_SEND tasks to dropped ranks: their tasks end with PEER_DROPPED (R553). -/
def dropPeers : Act := .dyn fun d =>
  let gone := fun (k : Pkt) => !k.bySlot && d.eng.red.drop.contains k.dest
  let f := d.eng.fab
  let ids := (f.e2e.filter fun x => gone x.pkt && x.task != 0).map E2E.task ++
    (f.blocked.filter fun x => gone x.1 && x.2 != 0).map (fun x => x.2) ++
    (f.reqs.filter fun x => gone x.pkt && !x.gather).map FabReq.task
  .all [Act.each ids.eraseDups fun t => endTask t stFault fkPeerDropped,
    updFab fun f => { f with
      e2e := f.e2e.filter fun x => !(gone x.pkt && x.task != 0)
      blocked := f.blocked.filter fun x => !(gone x.1 && x.2 != 0)
      reqs := f.reqs.filter fun x => !(gone x.pkt && !x.gather)
      unrouted := f.unrouted.filter fun k => !(f.e2e.any fun x => x.pkt == k && gone k && x.task != 0) }]

/-- A gather request to a dropped owner goes to its partner instead (R436, R553). -/
def redirectGathers (p : Nat) : Act := .dyn fun d =>
  Act.each (d.eng.fab.reqs.filter fun x => x.gather && d.eng.red.drop.contains x.pkt.dest) fun x =>
    let k := { x.pkt with dest := d.tileServer p x.pkt.addr }
    .all [updFab fun f => { f with reqs := f.reqs.map fun y =>
        if y.tag == x.tag then { y with pkt := k, port := d.choosePort k } else y },
      fabSend k 0]

/-- The PROOF.COMMITs of an epoch whose decision is installed are complete: their threads go on (R443). -/
def wakeProofs (opened : Nat) : Act := .dyn fun d =>
  .seq (.eng fun e => { e with proof := { e.proof with commits := e.proof.commits.filter fun w => w.epoch == opened } })
    (Act.each (d.eng.proof.commits.filter fun w => w.epoch != opened) fun w =>
      updCaravan w.quire w.slot fun c =>
        if c.task == w.task && !c.stopping then
          (c.setThreads (c.collWait w.pc w.mask) .active).advance (c.collWait w.pc w.mask) 16
        else c)

/-! ### Packets that waited (R462, R512) -/

/-- What the packets of a kind do, and the memory they read. -/
def handlerOf (kind : Nat) : Handler :=
  if kind = pkWrite then takeWrite
  else if kind = pkAccumulate then takeAccumulate
  else if kind = pkMirror then takeMirror
  else if kind = pkFillData then takeFillData
  else if kind = pkTallyAdd then takeTallyAdd
  else if kind = pkDoorbell then takeDoorbell
  else fun _ _ _ _ => (.skip, true)

def Dev.packetReads (d : Dev) (p : Nat) (k : Pkt) : List (Nat × Nat × Nat) :=
  if k.kind = pkAccumulate then [(p, k.addr, k.data.length)]
  else if k.kind = pkReadReq then [(p, k.addr, k.arg)]
  else if k.kind = pkGatherReq then
    match d.servedAt p k.addr with
    | some o => [(p, o, 4096)]
    | none => []
  else if k.kind = pkReduce then d.redReads p k
  else []

/-- A held packet is handled now. A request to read, and one whose lines the host has to give back first, is delivered at this
device itself, as READ_REQ or GATHER_REQ at port 32 (log 14). -/
def redeliver (p : Nat) (h : HoldPkt) : Act := .dyn fun d =>
  let reads := d.packetReads p h.pkt
  if h.pkt.kind != pkReadReq && h.pkt.kind != pkGatherReq &&
      (reads.map fun r => d.hostBusy r.1 r.2.1 r.2.2).flatten == [] then
    if h.pkt.kind = pkReduce then redArrived h.port p h.pkt else accept h.port (handlerOf h.pkt.kind) p h.pkt
  else .seq (afterSnoop reads .skip) (updFab fun f => { f with own := f.own ++ [{ h.pkt with part := p }] })

/-- Every packet held for the rank partition is looked at again, in the order of arrival. -/
def redeliverHeld (p : Nat) : Act := .dyn fun d =>
  let mine := fun h : HoldPkt => if h.pkt.bySlot then h.pkt.part == p else true
  .seq (updFab fun f => { f with hold := f.hold.filter fun h => !mine h })
    (Act.each (d.eng.fab.hold.filter mine) (redeliver p))

/-! ### DECISION, SENDS_CLOSED and HALT at a rank -/

/-- Install a decision in the rank partition (R426), with what an installed decision brings about. -/
def installDecision (p : Nat) (b : List Byte) : Act := .dyn fun d =>
  if !d.installs p b then Act.add (TRN_COUNT_C_STALE p) 1
  else .all [ringEvent ringMgr evDecision (dcNextStep b + 2 ^ 32 * dcKind b), installEpoch p b, installValues p b, writeRecord p (dcKind b) (dcStep b) (dcAttempt b), decisionTally p,
    openAttempt p b, followPartner, dropPeers, redirectGathers p,
    Act.when (d.fld RES_SNAP_STATUS_STATE == 1 && decide (d.eng.resil.armed < dcNextStep b)) (freeze p),
    Act.set FAB_STATUS_JOINED 1, wakeProofs (dcOpened b), redeliverHeld p]

/-- SENDS_CLOSED of the current attempt (R519, R562). -/
def sendsClosed (p : Nat) (b : List Byte) : Act := .dyn fun d =>
  Act.when ((leAt b 0 4, leAt b 4 2) == d.tag p) (updRed fun r => { r with closed := true })

/-- HALT (R561). -/
def haltRank (p : Nat) : Act := .dyn fun d =>
  .all [Act.when (d.flag (TRN_PROOF_SLOT_VALID p 0)) (discardEpoch p (d.fld (TRN_PROOF_SLOT_EPOCH p 0))),
    Act.set (PART_CTRL_STOP p) 1]

/-- What a broadcast does at a rank. -/
def broadcastHere (p : Nat) (k : Pkt) : Act :=
  if k.kind = pkDecision then installDecision p k.data
  else if k.kind = pkSendsClosed then sendsClosed p k.data
  else haltRank p

/-- A board manager relays a broadcast to the ranks of its board outside the drop set (R556, R560); a DECISION carries
the drop set, and for the others it is that of the current attempt. -/
def relay (k : Pkt) : Act := .dyn fun d =>
  let drops := if k.kind = pkDecision then dcDrops k.data else d.eng.red.drop
  Act.when (d.isBoardMgr && !d.isJobMgr)
    (Act.each ((List.range d.rankCount).filter fun r =>
        r != d.ownRank && !drops.contains r && d.boardManagerOf r == some d.ownRank) fun r =>
      fabSend { pkt0 k.kind with dest := r, arg := k.arg, data := k.data } 0)

/-- A broadcast reaches a rank. -/
def takeBroadcast : Handler := fun p _ k _ => (.seq (relay k) (broadcastHere p k), true)

def actDecision (port : Nat) (k : Pkt) : Act := arrival pkDecision port k takeBroadcast
def actSendsClosed (port : Nat) (k : Pkt) : Act := arrival pkSendsClosed port k takeBroadcast
def actHalt (port : Nat) (k : Pkt) : Act := arrival pkHalt port k takeBroadcast

/-! ### Commands -/

def execDecision (port : Nat) (k : Pkt) (s : State) : Host.Outcome State Fault Refusal := cmd (actDecision port k) s
def execSendsClosed (port : Nat) (k : Pkt) (s : State) : Host.Outcome State Fault Refusal := cmd (actSendsClosed port k) s
def execHalt (port : Nat) (k : Pkt) (s : State) : Host.Outcome State Fault Refusal := cmd (actHalt port k) s

end Sys2Proof.Machine
end

