-- ==== Sys2Proof/Machine/Manage.lean ====
section
/-! DEFINITION. The job manager (13, 16, 17, 18): broadcasts, joins, reports, decisions, failed ranks, and the PROOF
instructions. -/

namespace Sys2Proof.Machine

def updMgr (f : Mgr → Mgr) : Act := .eng fun e => { e with mgr := f e.mgr }

/-! ### Broadcasts (R559 to R563, R592) -/

/-- A broadcast to each board manager outside a drop set, to each rank outside it whose board manager is this device or in
it, and to the spares; then it acts here. -/
def broadcast (k : Pkt) (drops : List Nat) : Act := .dyn fun d =>
  let own := d.ownRank
  let ranks := (List.range d.rankCount).filter fun r =>
    r != own && !drops.contains r && match d.boardManagerOf r with
      | some b => b == r || b == own || drops.contains b
      | none => true
  let spares := (d.eng.mgr.filling.map fun x => x.1).filter fun r => r != own && !ranks.contains r
  .all [Act.each (ranks ++ spares) fun r => fabSend { k with dest := r } 0,
    updMgr fun m => { m with last := some k },
    match d.rankPart with
    | some p => broadcastHere p k
    | none => .skip]

/-- The value of a job-wide epoch. -/
def jobEpoch (n : Nat) : Nat := 2 ^ 31 + n % 2 ^ 31

/-- The payload of a DECISION (R559). -/
def decisionBytes (m : Mgr) (kind step attempt exp clean opened : Nat) (drops : List Nat) : List Byte :=
  let was := if kind = decInit then (0, 0, 0) else (m.step, m.attempt, jobEpoch m.epoch)
  leBytes 4 was.1 ++ leBytes 2 was.2.1 ++ leBytes 1 kind ++ leBytes 1 exp ++ leBytes 4 step ++ leBytes 2 attempt ++
  leBytes 2 drops.length ++ leBytes 4 clean ++ leBytes 4 was.2.2 ++ leBytes 4 (jobEpoch opened) ++ [0, 0, 0, 0] ++
  drops.flatMap (leBytes 2)

/-- The drop set of the next attempt: ranks enter it as they fail and leave it once they are filled (R581, R584, R597). -/
def Dev.nextDrops (d : Dev) : List Nat :=
  let m := d.eng.mgr
  (List.range d.rankCount).filter fun r =>
    (m.drop.contains r || m.failed.contains r) && !(m.filled.any fun x => x.1 == r)

/-- A rank and its partner that are both in a set. -/
def Dev.pairIn (d : Dev) (drops : List Nat) : Option (Nat × Nat) :=
  (drops.find? fun r => drops.contains (rankPartner d.ranks r)).map fun r => (r, rankPartner d.ranks r)

/-- Open the next attempt with a decision, or send HALT where it cannot be opened (R516, R560, R561). -/
def emit (kind step attempt exp clean : Nat) : Act := .dyn fun d =>
  let m := d.eng.mgr
  let drops := d.nextDrops
  let pair := d.pairIn drops
  let entered := (drops.filter fun r => !m.drop.contains r).length
  if 224 < drops.length || pair.isSome then
    let big := decide (224 < drops.length)
    let two := if big then (0xFFFF, 0xFFFF) else pair.getD (0xFFFF, 0xFFFF)
    .seq (updMgr fun m => { m with halted := true, armed := false, failures := m.failures + entered })
      (broadcast { pkt0 pkHalt with
        arg := bv (!big), data := leBytes 4 m.step ++ leBytes 2 m.attempt ++ leBytes 2 two.1 ++ leBytes 2 two.2 ++ [0, 0] }
        drops)
  else
    let opened := (m.epoch + 1) % 2 ^ 31
    let k := { pkt0 pkDecision with data := decisionBytes m kind step attempt exp clean opened drops }
    .all [updMgr fun m => { m with
        step := step % 2 ^ 32, attempt := attempt % 2 ^ 16, exp := exp, clean := clean % 2 ^ 32, epoch := opened
        drop := drops, failed := [], unreach := [], ranksDone := [], ownersDone := [], armed := false, closed := false
        failures := m.failures + entered },
      broadcast k drops,
      updMgr fun m => { m with
        filling := m.filling.filter fun x => drops.contains x.1
        filled := m.filled.filter fun x => drops.contains x.1 }]

/-! ### Deciding (R422, R520, R583) -/

/-- The job manager's role is active, its job runs, and it has not failed itself (R561, R585). -/
def Dev.mgrRuns (d : Dev) : Bool :=
  d.isJobMgr && d.eng.mgr.started && !d.eng.mgr.halted && !d.eng.mgr.failed.contains d.ownRank

/-- The ranks outside the drop set. -/
def Dev.outside (d : Dev) : List Nat := (List.range d.rankCount).filter fun r => !d.eng.mgr.drop.contains r

/-- A SILENT record about a rank, which fails with it (R583). -/
def silentRank (r n : Nat) : Act := .dyn fun d =>
  .seq (faultRecord { faultOf d fkSilent 0xFF 0 (leBytes 2 n) with rank := r })
    (updMgr fun m => { m with
      silent := Store.put zeroNat r 0 m.silent
      failed := if m.failed.contains r then m.failed else m.failed ++ [r] })

/-- LATE decisions without a RANK_DONE, counted rank by rank (R583). -/
def countSilent : Act := .dyn fun d =>
  let limit := d.fld RES_SILENT_LIMIT
  Act.each d.outside fun r =>
    let n := if d.eng.mgr.ranksDone.contains r then 0 else Store.get zeroNat r d.eng.mgr.silent + 1
    if limit ≠ 0 && limit ≤ n then silentRank r n
    else updMgr fun m => { m with silent := Store.put zeroNat r n m.silent }

/-- LATE: the attempt is repeated with the same values. -/
def decideLate : Act := .dyn fun d =>
  Act.when d.mgrRuns (.seq countSilent
    (.dyn fun d => Act.when d.mgrRuns (emit decLate d.eng.mgr.step (d.eng.mgr.attempt + 1) d.eng.mgr.exp d.eng.mgr.clean)))

/-- Every owner has reported: COMMIT, NONFINITE or FLOOR by the table of R422. -/
def decideDone (nonfinite : Bool) : Act := .dyn fun d =>
  let m := d.eng.mgr
  let p := d.rankPart.getD 0
  let compat := d.lsMode p == 1
  .seq (updMgr fun m => { m with silent := [] }) <|
  if !nonfinite then
    if compat then emit decCommit (m.step + 1) 0 m.exp m.clean
    else if d.lsGrowth p ≤ m.clean + 1 then emit decCommit (m.step + 1) 0 (min (m.exp + 1) 63) 0
    else emit decCommit (m.step + 1) 0 m.exp (m.clean + 1)
  else if compat then emit decNonfinite (m.step + 1) 0 m.exp m.clean
  else if m.exp = 0 then emit decFloor m.step m.attempt m.exp m.clean
  else emit decNonfinite m.step (m.attempt + 1) (m.exp - 1) 0

/-- A report of the manager's current attempt from a rank outside the drop set. -/
def Dev.reportCounts (d : Dev) (b : List Byte) : Bool :=
  d.mgrRuns && leAt b 0 4 == d.eng.mgr.step && leAt b 4 2 == d.eng.mgr.attempt && d.outside.contains (leAt b 6 2)

/-- RANK_DONE: the first arms the deadline; after the last, SENDS_CLOSED goes out (R518, R519). -/
def takeRankDone : Handler := fun _ _ k d =>
  let r := leAt k.data 6 2
  if !d.reportCounts k.data || d.eng.mgr.ranksDone.contains r then (.skip, true)
  else (.seq (updMgr fun m => { m with ranksDone := m.ranksDone ++ [r], armed := true }) <| .dyn fun d =>
    let m := d.eng.mgr
    Act.when (!m.closed && d.outside.all fun r => m.ranksDone.contains r)
      (.seq (updMgr fun m => { m with closed := true })
        (broadcast { pkt0 pkSendsClosed with data := leBytes 4 m.step ++ leBytes 2 m.attempt } m.drop)), true)

/-- OWNER_DONE: a failed check or an unfinished tree decides LATE; the last one decides the attempt (R520, R562). -/
def takeOwnerDone : Handler := fun _ _ k d =>
  let r := leAt k.data 6 2
  let flags := leAt k.data 8 1
  if !d.reportCounts k.data then (.skip, true)
  else if bit flags 1 || bit flags 2 then
    (.seq (updMgr fun m => { m with ownersDone := m.ownersDone.filter (fun x => x.1 != r) ++ [(r, flags)] }) decideLate, true)
  else (.seq (updMgr fun m => { m with ownersDone := m.ownersDone.filter (fun x => x.1 != r) ++ [(r, flags)] }) <|
    .dyn fun d =>
      let m := d.eng.mgr
      Act.when (d.outside.all fun r => m.ownersDone.any fun x => x.1 == r)
        (decideDone (m.ownersDone.any fun x => bit x.2 0)), true)

def actRankDone (port : Nat) (k : Pkt) : Act := arrival pkRankDone port k takeRankDone
def actOwnerDone (port : Nat) (k : Pkt) : Act := arrival pkOwnerDone port k takeOwnerDone

/-- STEP_DEADLINE (R518, R520). -/
def actStepDeadline : Act := .dyn fun d => Act.when d.eng.mgr.armed decideLate

/-! ### Failed ranks (R581 to R583, R592, R597, R598) -/

/-- A rank fails: outside the drop set, the attempt is LATE at once; in it, its spare's fill is off. -/
def rankFailed (r : Nat) : Act := .dyn fun d =>
  let m := d.eng.mgr
  if d.rankCount ≤ r || m.failed.contains r then .skip
  else if m.drop.contains r then updMgr fun m => { m with
    filling := m.filling.filter fun x => x.1 != r
    filled := m.filled.filter fun x => x.1 != r }
  else .seq (updMgr fun m => { m with failed := m.failed ++ [r] }) decideLate

/-- The incarnation last admitted for a rank. -/
def Dev.admitted (d : Dev) (r : Nat) : Option Nat :=
  (d.eng.mgr.joined.find? fun x => x.1 == r).map fun x => x.2

/-- A record that concerns a rank: one that an earlier incarnation of it made says nothing of the present one; of a
dropped rank only its spare's count. -/
def Dev.recordCounts (d : Dev) (src r inc : Nat) : Bool :=
  if d.eng.mgr.drop.contains r then d.eng.mgr.filling.contains (r, inc) || (src != r && d.eng.mgr.filling.any fun x => x.1 == r)
  else match d.admitted r with
    | some i => src != r || !newerInc inc i
    | none => true

/-- A fault record at the job manager. -/
def mgrRecord (src : Nat) (b : List Byte) : Act := .dyn fun d =>
  let kind := leAt b 2 2
  let r := leAt b 4 2
  let named := leAt b 32 2
  let inc := leAt b 34 2
  if kind = fkUnreachable then
    if named = 0xFFFF then .skip
    else .seq (updMgr fun m => { m with
        unreach := if m.unreach.contains (named, src) then m.unreach else m.unreach ++ [(named, src)] })
      (.dyn fun d => Act.when (decide (2 ≤ (d.eng.mgr.unreach.filter fun x => x.1 == named).length)) (rankFailed named))
  else if kind = fkFillDone then
    updMgr fun m => { m with
      filled := if m.filling.contains (named, inc) && !m.filled.contains (named, inc) then m.filled ++ [(named, inc)]
        else m.filled }
  else if kind = fkFillAborted then
    updMgr fun m => { m with filling := m.filling.erase (named, inc), filled := m.filled.erase (named, inc) }
  else if sevRank ≤ leAt b 1 1 && d.recordCounts src r (leAt b 30 2) then rankFailed r
  else .skip

/-- FAULT_RECORD (R556, R581, R582). The partner that fills a spare and gets a rank-fatal record of it ends the fill
(R598). -/
def takeFaultRecord : Handler := fun _ _ k d =>
  let b := fit 64 k.data
  let r := leAt b 4 2
  (.seq (Act.when (decide (sevRank ≤ leAt b 1 1) && d.filling && r == d.partner && k.src == r &&
        leAt b 30 2 == d.eng.resil.spareInc) abortFill)
    (Act.when d.isJobMgr (mgrRecord k.src b)), true)

def actFaultRecord (port : Nat) (k : Pkt) : Act := arrival pkFaultRecord port k takeFaultRecord

/-! ### JOIN and INIT (R557, R558, R592) -/

/-- A JOIN stays until the job manager starts anew. -/
def keepJoin (k : Pkt) : Act := updMgr fun m => { m with early := m.early ++ [k] }

/-- The job manager looks at a JOIN. -/
def admitJoin (k : Pkt) : Act := .dyn fun d =>
  let b := k.data
  let m := d.eng.mgr
  let r := leAt b 8 2
  let inc := leAt b 10 2
  let enter := fun m : Mgr => { m with joined := m.joined.filter (fun x => x.1 != r) ++ [(r, inc)] }
  if leAt b 0 8 != d.jobId || leAt b 16 8 != d.jobCheck then updMgr fun m => { m with refused := m.refused + 1 }
  else if d.rankCount ≤ r then .skip
  else if m.drop.contains r then
    if (match d.admitted r with
        | some i => newerInc i inc
        | none => true) then
      .seq (updMgr fun m => { enter m with
          filling := m.filling.filter (fun x => x.1 != r) ++ [(r, inc)]
          filled := m.filled.filter fun x => x.1 != r
          unreach := m.unreach.filter fun x => x.1 != r })
        (match m.last with
          | some k => fabSend { k with dest := r } 0
          | none => .skip)
    else .skip
  else if m.started then keepJoin k
  else updMgr enter

/-- JOIN. -/
def takeJoin : Handler := fun _ _ k d =>
  (if d.jobManagerRank != some d.ownRank then .skip
    else if d.isJobMgr then admitJoin k else keepJoin k, true)

def actJoin (port : Nat) (k : Pkt) : Act := arrival pkJoin port k takeJoin

/-- Once the role is active, the JOINs that came before are looked at. -/
def mgrStart : Act := .dyn fun d =>
  Act.when (d.isJobMgr && !d.eng.mgr.started)
    (.seq (updMgr fun m => { m with early := [] }) (Act.each d.eng.mgr.early admitJoin))

/-- APPLY_DONE, with the JOINs that the manager's role lets in. -/
def actApplyDone (write : Nat → Nat → Act) : Act := .seq (applyDone write) mgrStart

/-- Every rank without a fault record has joined, and every board manager without one is aligned (R558). -/
def Dev.initReady (d : Dev) : Bool :=
  let m := d.eng.mgr
  d.isJobMgr && !m.started && !m.halted && !m.failed.contains d.ownRank &&
  (List.range d.rankCount).all fun r =>
    m.failed.contains r ||
    ((d.admitted r).isSome && (r == d.ownRank || !(d.boardManagerOf r == some r) || m.aligned.contains r))

/-- INIT_BROADCAST: the manager's own STEP, EXP and CLEAN, and ATTEMPT 0 (R558, R560). -/
def actInitBroadcast : Act := .dyn fun d =>
  match d.rankPart with
  | none => .skip
  | some p =>
    Act.when d.initReady
      (.seq (updMgr fun m => { m with started := true })
        (emit decInit (d.fld (TRN_STEP_STEP p)) 0 (d.fld (TRN_LS_EXP p)) (d.fld (TRN_LS_CLEAN p))))

/-! ### PROOF (R441 to R445, R282) -/

/-- PROOF.OPEN. -/
def actProofOpen (sel : Sel) (w : LongW) : Act :=
  issueLong sel 12 0x00 w fun x =>
    openLocal x.task.part x.va.toNat x.task.id

/-- PROOF.COMMIT or PROOF.DISCARD of a job-wide value: on the manager device one other than the partition's current
job-wide epoch is counted and does nothing; any other device ends the task (R443). -/
def jobProof (x : LCtx) (now : Act) : Act := .dyn fun d =>
  let p := x.task.part
  if !d.isJobMgr then x.fault fkProofRole
  else if d.flag (TRN_PROOF_SLOT_VALID p 0) && d.fld (TRN_PROOF_SLOT_EPOCH p 0) == x.va.toNat then now
  else Act.add (TRN_PROOF_DROP_NOOP p) 1

/-- PROOF.COMMIT: of the current job-wide epoch it waits for the install of the manager's decision, its threads in WAIT_COLL
(R216, R443; log 115). -/
def actProofCommit (sel : Sel) (w : LongW) : Act :=
  issueLong sel 12 0x01 w fun x =>
    if !jobWide x.va.toNat then closeLocal x.task.part x.va.toNat true
    else jobProof x (.seq (updCaravan x.n x.slot fun c =>
        let ls := x.c.live.filter (bit x.mask)
        (c.setThreads ls (.waitColl x.pc x.mask)).jump ls x.pc)
      (.eng fun e => { e with proof := { e.proof with
          commits := e.proof.commits ++ [⟨x.n, x.slot, x.task.id, x.pc, x.mask, x.va.toNat⟩] } }))

/-- PROOF.DISCARD: of the current job-wide epoch it forces LATE (R443). -/
def actProofDiscard (sel : Sel) (w : LongW) : Act :=
  issueLong sel 12 0x02 w fun x =>
    if !jobWide x.va.toNat then closeLocal x.task.part x.va.toNat false
    else jobProof x decideLate

/-! ### Commands -/

def execRankDone (port : Nat) (k : Pkt) (s : State) : Host.Outcome State Fault Refusal := cmd (actRankDone port k) s
def execOwnerDone (port : Nat) (k : Pkt) (s : State) : Host.Outcome State Fault Refusal := cmd (actOwnerDone port k) s
def execStepDeadline (s : State) : Host.Outcome State Fault Refusal := cmd actStepDeadline s
def execFaultRecord (port : Nat) (k : Pkt) (s : State) : Host.Outcome State Fault Refusal := cmd (actFaultRecord port k) s
def execJoin (port : Nat) (k : Pkt) (s : State) : Host.Outcome State Fault Refusal := cmd (actJoin port k) s
def execInitBroadcast (s : State) : Host.Outcome State Fault Refusal := cmd actInitBroadcast s
def execProofOpen (sel : Sel) (w : LongW) (s : State) : Host.Outcome State Fault Refusal := cmd (actProofOpen sel w) s
def execProofCommit (sel : Sel) (w : LongW) (s : State) : Host.Outcome State Fault Refusal := cmd (actProofCommit sel w) s
def execProofDiscard (sel : Sel) (w : LongW) (s : State) : Host.Outcome State Fault Refusal := cmd (actProofDiscard sel w) s

end Sys2Proof.Machine
end

