-- ==== Sys2Proof/Machine/Aligning.lean ====
section
/-! DEFINITION. The job time base (17): alignment periods, PING, PONG and OFFSET, the slewing of the aligned stamp, and
MANAGER_LOST. -/

namespace Sys2Proof.Machine

def updAlign (f : Align → Align) : Act := .eng fun e => { e with align := f e.align }

/-- The port to a rank with the smallest round trip (R565). -/
def Dev.nearPort (d : Dev) (dest : Nat) : Option Nat :=
  (d.routePorts dest).foldl (fun m j => match m with
    | none => some j
    | some i => if d.fld (FAB_PORT_RTT_FCYCLES j) < d.fld (FAB_PORT_RTT_FCYCLES i) then some j else some i) none

/-- Send a packet of the time base over that port; without one it is replaced in the next period (R533, R565). -/
def nearSend (k : Pkt) : Act := .dyn fun d =>
  match d.nearPort k.dest with
  | some j => Act.when (!d.eng.pwr.stopping) (portSend j { k with
      src := d.ownRank, tc := d.classOf (trafficKind k.kind), hops := d.fld FAB_CFG_HOP_LIMIT,
      incarnation := d.fld FAB_INCARNATION_VALUE })
  | none => .skip

/-- The rank that aligns a rank: the job manager for board managers, for its own board and for a rank whose board manager is
dropped; otherwise the board manager (R556, R586). -/
def Dev.alignerOf (d : Dev) (r : Nat) : Option Nat :=
  match d.boardManagerOf r with
  | some b => if b == r || d.eng.red.drop.contains b then d.jobManagerRank else some b
  | none => d.jobManagerRank

/-- The devices that this manager aligns: a board manager once it is aligned itself (R565). -/
def Dev.alignees (d : Dev) : List Nat :=
  if d.isJobMgr || (d.isBoardMgr && d.flag FAB_STATUS_ALIGNED) then
    (List.range d.rankCount).filter fun r =>
      r != d.ownRank && !d.eng.red.drop.contains r && d.alignerOf r == some d.ownRank
  else []

/-- ALIGNMENT_PERIOD: eight PINGs to each (R565). -/
def actAlignmentPeriod : Act := .dyn fun d =>
  Act.when (d.alignees != []) (.seq (updAlign fun a => { a with period := (a.period + 1) % 2 ^ 32, exchanges := [] })
    (Act.each d.alignees fun r => Act.each (List.range 8) fun i =>
      nearSend { pkt0 pkPing with dest := r, addr := i, data := leBytes 8 d.alignedStamp }))

/-- PING: answered with the raw stamp (R565). -/
def takePing : Handler := fun _ _ k d =>
  (.seq (Act.when (d.alignerOf d.ownRank == some k.src) (updAlign fun a => { a with seen := d.now }))
    (nearSend { pkt0 pkPong with
      dest := k.src, addr := k.addr, data := fit 8 k.data ++ leBytes 8 d.now ++ leBytes 8 d.now }), true)

def actPing (port : Nat) (k : Pkt) : Act := arrival pkPing port k takePing

/-- The signed difference of two stamps. -/
def stampDiff (a b : Nat) : Int := signed 64 ((a + 2 ^ 64 - b % 2 ^ 64) % 2 ^ 64)

/-- The exchange with the smallest round trip. -/
def bestExchange : List Exchange → Option Exchange
  | [] => none
  | x :: t => match bestExchange t with
    | some y => if y.rtt < x.rtt then some y else some x
    | none => some x

/-- OFFSET to a device after its eight exchanges: half of the kept exchange's sum, in whole tcycles; which of the two
next to an odd half is left open. -/
def sendOffset (r : Nat) : Act := .dyn fun d =>
  match bestExchange (d.eng.align.exchanges.filter fun x => x.peer == r) with
  | none => .skip
  | some x => Act.free fun v =>
    let half := x.twice / 2 + (if x.twice % 2 = 0 then 0 else (v.toNat % 2 : Nat))
    .seq (nearSend { pkt0 pkOffset with
        dest := r, arg := d.eng.align.period
        data := leBytes 8 (half % 2 ^ 64).toNat ++ leBytes 4 (x.rtt % 2 ^ 32).toNat ++ [0, 0, 0, 0] })
      (updMgr fun m => { m with aligned := if m.aligned.contains r then m.aligned else m.aligned ++ [r] })

/-- PONG: the exchange is complete; after the eighth of a period OFFSET goes out (R565). -/
def takePong : Handler := fun _ _ k d =>
  let t1 := leAt k.data 0 8
  let t2 := leAt k.data 8 8
  let t3 := leAt k.data 16 8
  let t4 := d.alignedStamp
  let x : Exchange :=
    { peer := k.src, num := k.addr, rtt := stampDiff t4 t1 - stampDiff t3 t2, twice := stampDiff t1 t2 + stampDiff t4 t3 }
  if !d.alignees.contains k.src || 8 ≤ k.addr || (d.eng.align.exchanges.any fun y => y.peer == k.src && y.num == k.addr) then
    (.skip, true)
  else (.seq (updAlign fun a => { a with exchanges := a.exchanges ++ [x] }) <| .dyn fun d =>
    Act.when ((d.eng.align.exchanges.filter fun y => y.peer == k.src).length == 8) (sendOffset k.src), true)

def actPong (port : Nat) (k : Pkt) : Act := arrival pkPong port k takePong

/-- OFFSET: a new target; the first is taken at once, and a second one in a period replaces the first (R566, R567). -/
def takeOffset : Handler := fun _ _ k d =>
  let off := signed 64 (leAt k.data 0 8)
  if d.isJobMgr || d.alignerOf d.ownRank != some k.src then (.skip, true)
  else (.all [Act.set FAB_SYNC_LAST_RTT (leAt k.data 8 4),
    if !d.flag FAB_STATUS_ALIGNED then
      .all [Act.set FAB_STAMP_OFFSET_TCYCLES (leAt k.data 0 8), Act.set FAB_STATUS_ALIGNED 1,
        updAlign fun a => { a with last := off, lastAt := d.now, prev := off, prevAt := d.now, lastPeriod := k.arg }]
    else updAlign fun a =>
      if a.lastPeriod = k.arg then { a with last := off, lastAt := d.now }
      else { a with last := off, lastAt := d.now, prev := a.last, prevAt := a.lastAt, lastPeriod := k.arg }], true)

def actOffset (port : Nat) (k : Pkt) : Act := arrival pkOffset port k takeOffset

/-- The offset that the device moves toward: extrapolated at the rate of the last two measurements (R566). -/
def Align.target (a : Align) (now : Nat) : Int :=
  if a.lastAt ≤ a.prevAt then a.last
  else a.last + (a.last - a.prev) * ((now : Int) - a.lastAt) / ((a.lastAt : Int) - a.prevAt)

/-- One tcycle in 64 the offset moves by one toward its target (R566). -/
def slew : Act := .dyn fun d =>
  let now := d.fld FAB_STAMP_OFFSET_TCYCLES
  let off := signed 64 now
  let t := d.eng.align.target d.now
  if !d.flag FAB_STATUS_ALIGNED || d.now % 64 != 0 then .skip
  else if off < t then Act.set FAB_STAMP_OFFSET_TCYCLES (now + 1)
  else if t < off then Act.set FAB_STAMP_OFFSET_TCYCLES (now + 2 ^ 64 - 1)
  else .skip

/-- MANAGER_LOST (R564). -/
def actManagerLost : Act := .dyn fun d =>
  Act.when (d.hasRanks && !d.isJobMgr && (d.alignerOf d.ownRank).isSome) (report fkManagerLost 0xFF 0 [])

/-! ### Commands -/

def execAlignmentPeriod (s : State) : Host.Outcome State Fault Refusal := cmd actAlignmentPeriod s
def execPing (port : Nat) (k : Pkt) (s : State) : Host.Outcome State Fault Refusal := cmd (actPing port k) s
def execPong (port : Nat) (k : Pkt) (s : State) : Host.Outcome State Fault Refusal := cmd (actPong port k) s
def execOffset (port : Nat) (k : Pkt) (s : State) : Host.Outcome State Fault Refusal := cmd (actOffset port k) s
def execManagerLost (s : State) : Host.Outcome State Fault Refusal := cmd actManagerLost s

end Sys2Proof.Machine
end

