-- ==== Sys2Proof/Machine/Services.lean ====
section
/-! DEFINITION. The DEFAULT services (04, 06): FILL, COPY, MEMTEST, MATMUL and the board collectives with their SERVICE
packets. -/

namespace Sys2Proof.Machine

/-- A descriptor of a service; FILL takes those with an unknown code too, which are turned down (R187). -/
def wantService (code : Nat) (b : List Byte) : Bool :=
  dKind b == kdService && (dService b == code || (code == 1 && !(decide (1 ≤ dService b) && decide (dService b ≤ 8))))

/-- Write a byte string to a place of the host address map; a proof writes no host memory (R458). -/
def placeWrite (t : Task) (pl : Place) (bs : List Byte) (poison : Bool) : Act := .dyn fun d =>
  let view := d.taskView t.id
  match pl with
  | .mem o => memWrite t.part view o bs poison t.id
  | .host a => if view.isSome then endTask t.id stFault fkProofHostWrite else hostWrite t.part a bs poison t.id
  | .bad => taskEnds t.id stRange

/-! ### FILL, COPY, MEMTEST (R111, R115) -/

/-- A 64-bit pattern repeated over n bytes. -/
def repeated (n pattern : Nat) : List Byte := (List.range n).map fun i => BitVec.ofNat 8 (pattern / 2 ^ (8 * (i % 8)))

/-- FILL. -/
def actFill (q : Nat) (bs : List Byte) : Act :=
  dispatch q bs (wantService 1) (fun _ _ => []) fun t => .dyn fun d =>
    let n := dArg t.desc 1
    .seq (placeWrite t (d.place t.part (dArg t.desc 0) n true) (repeated n (dArg t.desc 2)) false) (taskEnds t.id stOk)

/-- COPY. -/
def actCopy (q : Nat) (bs : List Byte) : Act :=
  dispatch q bs (wantService 2) (fun d t => d.copyReads t (dArg t.desc 0) (dArg t.desc 2)) fun t =>
    copyRange t (dArg t.desc 0) (dArg t.desc 1) (dArg t.desc 2)

/-- The content that MEMTEST leaves: the spec states no pattern, so each 8 bytes are a free value. -/
def freeBytes (n : Nat) (k : List Byte → Act) : Act := .dyn fun d =>
  .seq (.eng fun e => { e with free := e.free + (n / 8 + 1) })
    (k ((List.range n).map fun i =>
      BitVec.ofNat 8 ((Config.freeValue (d.eng.free + i / 8)).toNat / 2 ^ (8 * (i % 8)))))

/-- MEMTEST over a range: the offsets in the range where a check found a correctable and an uncorrectable error (log
10). An uncorrectable one is a detected fault. Poison that the patterns do not clear, as in a channel that is fenced already, ends
the task (R115, R163, R573). The first failing address is the lowest one with an uncorrectable error, whatever the order of
finding; a corrected error does not count as failing (log 108). -/
def actMemtest (q : Nat) (bs : List Byte) (corr ue : List Nat) : Act :=
  dispatch q bs (wantService 3) (fun _ _ => []) fun t => .dyn fun d =>
    let a := dArg t.desc 0
    let n := dArg t.desc 1
    let pl := d.place t.part a n true
    let test := freeBytes n fun bs => placeWrite t pl bs false
    match pl with
    | .mem o =>
      let corr := corr.filter (· < n)
      let ue := ue.filter (· < n)
      .all [test, countRead t.part o n, Act.each corr fun i => corrected t.part (o + i),
        updTask t.id fun x => { x with
          res0 := corr.length, res1 := ue.length
          res2 := match ue with
            | i :: r => a + r.foldl min i
            | [] => 2 ^ 64 - 1 },
        .dyn fun d => Act.when (ue == [] && d.poisoned t.part (d.taskView t.id) o n) (endTask t.id stFault fkPoison),
        Act.each ue fun i => ueDune t.part (o + i) t.id, taskEnds t.id stOk]
    | _ => .all [test, updTask t.id fun x => { x with res2 := 2 ^ 64 - 1 }, taskEnds t.id stOk]

/-! ### Operands that may lie in host memory -/

def updSvc (id : Nat) (f : Svc → Svc) : Act := .eng fun e =>
  { e with svcs := e.svcs.map fun x => if x.task == id then f x else x }

def Dev.svc (d : Dev) (id : Nat) : Option Svc := d.eng.svcs.find? fun x => x.task == id

/-- Where an operand's bytes stand in the buffer. -/
def svcKey (k o : Nat) : Nat := k * 2 ^ 48 + o

def Svc.bytes (s : Svc) (k o n : Nat) : List Byte := (List.range n).map fun i => Store.get zeroByte (svcKey k (o + i)) s.buf

def Svc.put (s : Svc) (key : Nat) (bs : List Byte) (poison : Bool) : Svc :=
  { s with
    buf := (List.range bs.length).foldl (fun m i => Store.put zeroByte (key + i) (bs.getD i 0) m) s.buf
    bad := if poison && !s.bad.contains (key / 2 ^ 48) then key / 2 ^ 48 :: s.bad else s.bad }

/-- Read an operand: at once from the partition's memory, line by line from the host. -/
def readOperand (t : Task) (pl : Place) (k n : Nat) : Act := .dyn fun d =>
  let view := d.taskView t.id
  match pl with
  | .mem o => .seq (countRead t.part o n)
      (updSvc t.id fun s => s.put (svcKey k 0) (d.viewBytes t.part view o n) (d.poisoned t.part view o n))
  | .host a =>
    if !d.axlUp then endTask t.id stFault fkHostTimeout
    else Act.each (linesOf a n) fun l =>
      let lo := max l a
      let hi := min (l + 64) (a + n)
      axlReq { Msg.mk0 opRdUc with part := t.part, addr := lo, len := hi - lo }
        (.svcRead (svcKey k (lo - a)) (hi - lo)) t.id
  | .bad => .skip

/-- An operand has still to come from the host. -/
def Dev.svcReading (d : Dev) (id : Nat) : Bool :=
  let mine := fun (w : ReqFor) (task : Nat) => task == id && match w with
    | .svcRead _ _ => true
    | _ => false
  (d.eng.axl.reqs.any fun r => mine r.why r.task) || (d.eng.axl.reqWait.any fun r => mine r.why r.task)

/-- The partition memory that operands lie in. -/
def Dev.operandReads (d : Dev) (t : Task) (l : List (Nat × Nat)) : List (Nat × Nat × Nat) :=
  l.flatMap fun x => d.copyReads t x.1 x.2

/-- Start a service with operands of its own: RANGE where a place is bad. -/
def startService (t : Task) (places : List Place) (operands : List (Place × Nat × Nat)) (go : Act) : Act :=
  if places.any (· == .bad) then taskEnds t.id stRange
  else .all [.eng fun e => { e with svcs := e.svcs ++ [{ task := t.id, buf := [], bad := [], got := [], sent := false }] },
    Act.each operands fun x => readOperand t x.1 x.2.1 x.2.2, go]

def dropSvc (id : Nat) : Act := .eng fun e => { e with svcs := e.svcs.filter fun x => x.task != id }

/-! ### Formats (R185) -/

/-- The format of R271 for a format code of a service, and the bytes of an element. -/
def svcFmt : Nat → Nat
  | 1 => 1
  | 2 => 2
  | 3 => 3
  | 4 => 6
  | _ => 0

def svcWidth : Nat → Nat
  | 1 => 2
  | 2 => 2
  | 3 => 1
  | 4 => 1
  | _ => 4

/-! ### MATMUL (R111, R113) -/

/-- The dimensions, format and flags of a MATMUL. -/
def mmM (b : List Byte) : Nat := field (dArg b 3) 0 17
def mmN (b : List Byte) : Nat := field (dArg b 3) 17 17
def mmK (b : List Byte) : Nat := field (dArg b 3) 34 17
def mmFmt (b : List Byte) : Nat := field (dArg b 4) 0 8
def mmAdd (b : List Byte) : Bool := bit (dArg b 4) 8
def mmSame (b : List Byte) : Bool := bit (dArg b 4) 9
def mmOut (b : List Byte) : Nat := if mmSame b then mmFmt b else 5

/-- The bytes of A, B and C. -/
def mmBytesA (b : List Byte) : Nat := mmM b * mmK b * svcWidth (mmFmt b)
def mmBytesB (b : List Byte) : Nat := mmK b * mmN b * svcWidth (mmFmt b)
def mmBytesC (b : List Byte) : Nat := mmM b * mmN b * svcWidth (mmOut b)

/-- The lowest power of two among the terms of a sum, and the sum of their magnitudes in it. -/
def Val.lowest : List Val → Option Int
  | [] => none
  | .fin _ m e :: t => if m = 0 then Val.lowest t else
    match Val.lowest t with
    | some x => some (min e x)
    | none => some e
  | _ :: t => Val.lowest t

def Val.magnitude (q : Int) : Val → Nat
  | .fin _ m e => m * 2 ^ (e - q).toNat
  | _ => 0

/-- The sum of a list of terms where every order of summation gives the same in FP32: NaN where a term is NaN or infinities
of both signs are among them, an infinity where no order of the finite terms can overflow, and a finite sum that stays exact
(R376); none where the order counts. -/
def anyOrderSum (l : List Val) : Option Word :=
  if l.any (· == .nan) || (l.contains (.inf false) && l.contains (.inf true)) then some (BitVec.ofNat 32 fp32.nan)
  else
    let q := (Val.lowest l).getD 0
    let total := listSum (l.map (Val.magnitude q))
    match l.find? Val.nonfinite with
    | some v => if leP total q 1 127 then some (BitVec.ofNat 32 (fp32.round 0 0 v)) else none
    | none =>
      if (Val.lowest l).isNone then (if l.all fun v => v matches .fin true _ _ then none else some 0)
      else if q < -149 || 2 ^ 24 < total || 103 < q then none
      else some (BitVec.ofNat 32 (fp32.round 0 0 (Val.sum (.fin false 0 0 :: l))))

/-- A code of a format with every NaN canonical (R373). -/
def canonCode (fmt x : Nat) : Nat :=
  match fmtOf fmt with
  | some f => if f.isNan x then f.nan else x
  | none => x

/-- One element: the sum of the products, and of C where asked, in FP32. Where the order of summation counts it is a fixed
function of the operands' values, C as the FP32 value that it is (R113, R373, R384; log 15). -/
def matmulElem (fmt : Nat) (a b : List Nat) (c : Option (Nat × Nat)) : Word :=
  let terms := (List.zip a b).map fun x => mulAs fmt (decodeAs fmt x.1) (decodeAs fmt x.2)
  let all := match c with
    | some (f, x) => terms ++ [decodeAs f x]
    | none => terms
  match anyOrderSum (all.map Val.odd) with
  | some w => w
  | none => canonNan (Config.matmulSum fmt (a.map (canonCode fmt)) (b.map (canonCode fmt))
      (c.map fun x => convert x.1 0 0 0 x.2))

/-- The bytes of the result. -/
def matmulBytes (s : Svc) (b : List Byte) : List Byte :=
  let w := svcWidth (mmFmt b)
  let f := svcFmt (mmFmt b)
  let wo := svcWidth (mmOut b)
  let fo := svcFmt (mmOut b)
  let A := fun i k => leNat (s.bytes 0 ((i * mmK b + k) * w) w)
  let B := fun k j => leNat (s.bytes 1 ((k * mmN b + j) * w) w)
  (List.range (mmM b)).flatMap fun i => (List.range (mmN b)).flatMap fun j =>
    let c := if mmAdd b then some (fo, leNat (s.bytes 2 ((i * mmN b + j) * wo) wo)) else none
    let x := matmulElem f ((List.range (mmK b)).map (A i)) ((List.range (mmK b)).map fun k => B k j) c
    leBytes wo (convert 0 fo 0 0 x.toNat)

/-- MATMUL goes on once its operands have come. -/
def matmulGo (id : Nat) : Act := .dyn fun d =>
  match d.task id, d.svc id with
  | some t, some s =>
    if d.svcReading id then .skip
    else if s.bad != [] then endTask id stFault fkPoison
    else .all [placeWrite t (d.place t.part (dArg t.desc 2) (mmBytesC t.desc) true) (matmulBytes s t.desc) false,
      taskEnds id stOk, dropSvc id]
  | _, _ => .skip

def mmOperands (b : List Byte) : List (Nat × Nat) :=
  [(dArg b 0, mmBytesA b), (dArg b 1, mmBytesB b)] ++ if mmAdd b then [(dArg b 2, mmBytesC b)] else []

def actMatmul (q : Nat) (bs : List Byte) : Act :=
  dispatch q bs (wantService 4) (fun d t => d.operandReads t (mmOperands t.desc)) fun t => .dyn fun d =>
    let b := t.desc
    let ops := mmOperands b
    let at' := fun i : Nat => d.place t.part (ops.getD i (0, 0)).1 (ops.getD i (0, 0)).2 false
    startService t ((List.range ops.length).map at' ++ [d.place t.part (dArg b 2) (mmBytesC b) true])
      ((List.range ops.length).map fun i => (at' i, i, (ops.getD i (0, 0)).2)) (matmulGo t.id)

/-! ### Collectives (R112, R114, R186) -/

/-- The group of a collective. -/
def cGroup (b : List Byte) : Nat :=
  match dService b with
  | 5 => field (dArg b 2) 8 8
  | 6 => field (dArg b 2) 8 8
  | 7 => field (dArg b 3) 0 8
  | _ => field (dArg b 3) 8 8

def cFmt (b : List Byte) : Nat := if dService b = 5 then field (dArg b 2) 0 8 else field (dArg b 3) 0 8
def cRoot (b : List Byte) : Nat := field (dArg b 2) 0 8

/-- The members in slot order, and how many of them lie below a slot. -/
def members (g : Nat) : List Nat := upTo 8 (bit g)
def rankIn (g slot : Nat) : Nat := ((members g).filter (· < slot)).length

/-- Bytes that the member in a slot contributes. -/
def cBytes (b : List Byte) (slot : Nat) : Nat :=
  match dService b with
  | 5 => dArg b 1 * svcWidth (cFmt b)
  | 6 => if slot = cRoot b then dArg b 1 else 0
  | 7 => dArg b 2
  | _ => dArg b 2 * svcWidth (cFmt b)

/-- Where a member's share of REDUCE_SCATTER begins. -/
def shareAt (b : List Byte) (i : Nat) : Nat := i * dArg b 2 / (members (cGroup b)).length

/-- The bytes a destination must hold, and where it lies. -/
def cDstBytes (b : List Byte) : Nat :=
  match dService b with
  | 5 => dArg b 1 * svcWidth (cFmt b)
  | 6 => dArg b 1
  | 7 => (members (cGroup b)).length * dArg b 2
  | _ => ceilDiv (dArg b 2) (members (cGroup b)).length * svcWidth (cFmt b)

def cDst (b : List Byte) : Nat := if dService b = 5 || dService b = 6 then dArg b 0 else dArg b 1

/-- FP32 sums over the fixed binary tree of slots 0 to 7, absent slots as empty leaves. -/
def treeJoin : Option Val → Option Val → Option Val
  | none, y => y
  | x, none => x
  | some x, some y => some (fp32.decode (fp32.round 0 0 (x.add y)))

def treeSum (leaf : Nat → Option Val) : Option Val :=
  let a := fun i => treeJoin (leaf (2 * i)) (leaf (2 * i + 1))
  treeJoin (treeJoin (a 0) (a 1)) (treeJoin (a 2) (a 3))

/-- Elements e0 to e1 - 1 of the sum. -/
def sumBytes (s : Svc) (b : List Byte) (e0 e1 : Nat) : List Byte :=
  let w := svcWidth (cFmt b)
  let f := svcFmt (cFmt b)
  (List.range (e1 - e0)).flatMap fun i =>
    let leaf := fun slot => if bit (cGroup b) slot then some (decodeAs f (leNat (s.bytes slot ((e0 + i) * w) w))) else none
    leBytes w (match treeSum leaf with
      | some v => roundAs f 0 0 v
      | none => 0)

/-- The offsets of the chunks of a contribution; one without bytes is announced by an empty chunk. -/
def chunkList (n : Nat) : List (Nat × Nat) := if n = 0 then [(0, 0)] else chunks n

/-- Every other member's contribution has come. -/
def Svc.complete (s : Svc) (b : List Byte) (own : Nat) : Bool :=
  (members (cGroup b)).all fun m => m == own || (chunkList (cBytes b m)).all fun c => s.got.contains (m, c.1)

/-- Send the own contribution to every other member. -/
def sendContribution (t : Task) (own : Nat) : Act := .dyn fun d =>
  match d.svc t.id with
  | none => .skip
  | some s =>
    let b := t.desc
    .seq (updSvc t.id fun s => { s with sent := true }) <|
    Act.each ((members (cGroup b)).filter (· != own)) fun m => Act.each (chunkList (cBytes b own)) fun c =>
      fabSend { pkt0 pkService with
        dest := m, bySlot := true, part := t.part, srcPart := t.part, addr := c.1, arg := dService b,
        poison := s.bad.contains own, data := leBytes 8 (dTag b) ++ s.bytes own c.1 c.2 } t.id

/-- A SERVICE packet belongs to a running collective: partition, service, TAG and a chunk of a member that has not come
yet. -/
def Svc.takes (s : Svc) (t : Task) (own : Nat) (k : Pkt) : Bool :=
  let b := t.desc
  k.part == t.part && k.arg % 256 == dService b && leAt k.data 0 8 == dTag b && bit (cGroup b) k.src && k.src != own &&
  ((chunkList (cBytes b k.src)).any fun c => c.1 == k.addr) && !s.got.contains (k.src, k.addr)

/-- Take what waits in the inbox for a collective, in order. -/
def takeInbox (t : Task) (own : Nat) : Act := .dyn fun d =>
  Act.each d.eng.inbox fun k => .dyn fun d =>
    match d.svc t.id with
    | none => .skip
    | some s =>
      if s.takes t own k then .all [.eng fun e => { e with inbox := e.inbox.erase k },
        updSvc t.id fun s =>
          let s := s.put (svcKey k.src k.addr) (k.data.drop 8) k.poison
          { s with got := s.got ++ [(k.src, k.addr)] }]
      else .skip

/-- What a complete collective writes: offset in the destination, bytes, poison. -/
def Svc.results (s : Svc) (b : List Byte) (own : Nat) : List (Nat × List Byte × Bool) :=
  match dService b with
  | 5 => [(0, sumBytes s b 0 (dArg b 1), false)]
  | 6 => if own = cRoot b then [] else [(0, s.bytes (cRoot b) 0 (dArg b 1), s.bad.contains (cRoot b))]
  | 7 => (members (cGroup b)).map fun m => (rankIn (cGroup b) m * dArg b 2, s.bytes m 0 (dArg b 2), s.bad.contains m)
  | _ =>
    let i := rankIn (cGroup b) own
    [(0, sumBytes s b (shareAt b i) (shareAt b (i + 1)), false)]

/-- A collective goes on: it sends once its own operand is there, and ends when every contribution has come. A sum
consumes poison; a broadcast or a gather moves it (R163, R673). -/
def collectiveGo (id : Nat) : Act := .dyn fun d =>
  match d.task id, d.svc id with
  | some t, some s =>
    let own := d.eng.pwr.straps.slot
    let b := t.desc
    if d.svcReading id then .skip
    else if (dService b == 5 || dService b == 8) && s.bad.contains own then endTask id stFault fkPoison
    else .all [Act.when (!s.sent) (sendContribution t own), takeInbox t own, .dyn fun d =>
      match d.svc id with
      | none => .skip
      | some s =>
        if !s.complete b own then .skip
        else if (dService b == 5 || dService b == 8) && s.bad != [] then endTask id stFault fkPoison
        else .all [Act.each (s.results b own) fun x =>
            placeWrite t (d.place t.part (cDst b + x.1) x.2.1.length true) x.2.1 x.2.2,
          taskEnds id stOk, dropSvc id]]
  | _, _ => .skip

/-- The source of the own contribution. -/
def cSource (own : Nat) (b : List Byte) : Nat × Nat := (dArg b 0, cBytes b own)

/-- Start a collective; a device outside its group counts as a member that is absent, and so does the root of a BROADCAST that
its group leaves out: the task completes with GROUP (R112; log 109). -/
def actCollective (code q : Nat) (bs : List Byte) : Act :=
  dispatch q bs (wantService code) (fun d t => d.operandReads t [cSource d.eng.pwr.straps.slot t.desc]) fun t => .dyn fun d =>
    let b := t.desc
    let own := d.eng.pwr.straps.slot
    let src := cSource own b
    let dst := d.place t.part (cDst b) (cDstBytes b) true
    let needDst := !(code == 6 && own == cRoot b)
    if !bit (cGroup b) own || (code == 6 && !bit (cGroup b) (cRoot b)) then taskEnds t.id stGroup
    else startService t ([d.place t.part src.1 src.2 false] ++ if needDst then [dst] else [])
      [(d.place t.part src.1 src.2 false, own, src.2)] (collectiveGo t.id)

def actAllreduce (q : Nat) (bs : List Byte) : Act := actCollective 5 q bs
def actBroadcast (q : Nat) (bs : List Byte) : Act := actCollective 6 q bs
def actAllgather (q : Nat) (bs : List Byte) : Act := actCollective 7 q bs
def actReduceScatter (q : Nat) (bs : List Byte) : Act := actCollective 8 q bs

/-- A service whose operand has come from the host, or for which a chunk has come, goes on. -/
def svcGo (id : Nat) : Act := .dyn fun d =>
  match d.task id with
  | some t => if dService t.desc = 4 then matmulGo id else collectiveGo id
  | none => .skip

/-- SERVICE: a chunk of a collective's operand waits until its service takes it (R554). -/
def takeService : Handler := fun p _ k d =>
  (.seq (Act.when k.bySlot (.eng fun e => { e with inbox := e.inbox ++ [{ k with part := p }] }))
    (Act.each ((d.eng.svcs.filter fun s => (d.task s.task).any fun t => t.part == p && dService t.desc != 4).map Svc.task)
      collectiveGo), true)

def actService (port : Nat) (k : Pkt) : Act := arrival pkService port k takeService

/-- SERVICE_GROUP_TIMEOUT: a member has not submitted within a second (R112). -/
def actServiceGroupTimeout (id : Nat) : Act := .dyn fun d =>
  match d.task id, d.svc id with
  | some t, some s =>
    Act.when (dService t.desc != 4 && !s.complete t.desc d.eng.pwr.straps.slot && !t.ended)
      (.seq (taskEnds id stGroup) (dropSvc id))
  | _, _ => .skip

/-- A SERVICE packet of this device that a lost port had not delivered ends its service (R533). -/
def servicesLost (ks : List Pkt) : Act := .dyn fun d =>
  Act.each (d.eng.tasks.filter fun t => dKind t.desc == kdService && !t.ended && ks.any fun k =>
      k.kind == pkService && k.src == d.eng.pwr.straps.slot && k.part == t.part && k.arg % 256 == dService t.desc &&
      leAt k.data 0 8 == dTag t.desc) fun t => endTask t.id stFault fkLinkLoss

/-! ### Commands -/

def execFill (q : Nat) (bs : List Byte) (s : State) : Host.Outcome State Fault Refusal := cmd (actFill q bs) s
def execCopy (q : Nat) (bs : List Byte) (s : State) : Host.Outcome State Fault Refusal := cmd (actCopy q bs) s
def execMemtest (q : Nat) (bs : List Byte) (corr ue : List Nat) (s : State) : Host.Outcome State Fault Refusal :=
  cmd (actMemtest q bs corr ue) s
def execMatmul (q : Nat) (bs : List Byte) (s : State) : Host.Outcome State Fault Refusal := cmd (actMatmul q bs) s
def execAllreduce (q : Nat) (bs : List Byte) (s : State) : Host.Outcome State Fault Refusal := cmd (actAllreduce q bs) s
def execBroadcast (q : Nat) (bs : List Byte) (s : State) : Host.Outcome State Fault Refusal := cmd (actBroadcast q bs) s
def execAllgather (q : Nat) (bs : List Byte) (s : State) : Host.Outcome State Fault Refusal := cmd (actAllgather q bs) s
def execReduceScatter (q : Nat) (bs : List Byte) (s : State) : Host.Outcome State Fault Refusal :=
  cmd (actReduceScatter q bs) s
def execService (port : Nat) (k : Pkt) (s : State) : Host.Outcome State Fault Refusal := cmd (actService port k) s
def execServiceGroupTimeout (id : Nat) (s : State) : Host.Outcome State Fault Refusal := cmd (actServiceGroupTimeout id) s

end Sys2Proof.Machine
end

