-- ==== Sys2Proof/Machine/Ports.lean ====
section
/-! DEFINITION. The links of the optical fabric (17, 03, 21): flits, replays, training, losses, resets and laser light. -/

namespace Sys2Proof.Machine

/-! ### Flits (R530, R531) -/

/-- A sequence number lies at or before another in half-range order of 16 bits. -/
def seqLe (a b : Nat) : Bool := decide ((b + 65536 - a % 65536) % 65536 < 32768)

/-- The ACK of a flit releases the packets all of whose flits are acknowledged. -/
def Port.acked (p : Port) (ack : Nat) : Port :=
  { p with ack := ack, held := p.held.filter fun h => !seqLe h.seq ack }

/-- Returned credits of a class and lane; a port holds 256 flits of each (R541). -/
def Port.credited (p : Port) (tc lane n : Nat) : Port :=
  let i := creditAt (tc % 4) (lane % 2)
  { p with credits := p.credits.set i (min 256 (p.credits.getD i 0 + n)) }

/-- Resend the held flits from a sequence number on. -/
def Port.replay (p : Port) (from' : Nat) : Port :=
  { p with held := p.held.map fun h => if seqLe from' h.seq then { h with sends := h.sends + 1 } else h }

/-- How many flits that resends. -/
def Port.replayed (p : Port) (from' : Nat) : Nat :=
  listSum ((p.held.filter fun h => seqLe from' h.seq).map fun h => min h.flits ((h.seq + 65536 - from' % 65536) % 65536 + 1))

/-- A replay is counted, and its flits among those sent. -/
def replayFrom (j n : Nat) : Act := .dyn fun d =>
  if (d.port j).replayed n = 0 then .skip
  else .all [Act.add (FAB_PORT_TRAFFIC_TX_FLITS j) ((d.port j).replayed n), setPort j fun p => p.replay n,
    Act.add (FAB_PORT_LINK_REPLAYS j) 1, ringEvent (ringPort j) evReplay n]

/-- A flit as its header and its check give it: whether FEC and CRC are good, and the header's fields. -/
def actFabricFlit (j : Nat) (good : Bool) (seq ack ty credits crTc crVl : Nat) (peer : Option Nat) : Act := .dyn fun d =>
  if 32 ≤ j || !d.portUp j then .skip
  else
    let numbered := ty == 1 || ty == 3
    let p := d.port j
    let nakOne := if p.nak.isSome then Act.skip else setPort j fun p => { p with nak := some p.seqRx }
    if !good then nakOne
    else .all [setPort j fun p => (p.acked (ack % 65536)).credited crTc crVl credits, portPump j,
      if !numbered then .skip
      else if seq % 65536 = p.seqRx then
        .all [setPort j fun p => { p with seqRx := (p.seqRx + 1) % 65536, nak := none },
          Act.when (ty == 1) (Act.add (FAB_PORT_TRAFFIC_RX_FLITS j) 1),
          Act.when (ty == 3 && peer.isSome) (.seq (setPort j fun p => { p with peer := peer }) (peerJoin j))]
      else if seqLe (seq + 1) p.seqRx then .skip
      else nakOne]

/-- FABRIC_NAK: the sender replays from the named SEQ onward; what lies before it has been accepted (R131, R531). -/
def actFabricNak (j seq : Nat) : Act := .dyn fun d =>
  Act.when (decide (j < 32) && d.portUp j)
    (.seq (setPort j fun p => p.acked ((seq + 65535) % 65536)) (replayFrom j (seq % 65536)))

/-- FABRIC_REPLAY_TIMEOUT: replay from the oldest held flit (R531). -/
def actFabricReplayTimeout (j : Nat) : Act := .dyn fun d =>
  match (d.port j).held with
  | [] => .skip
  | h :: _ => Act.when (decide (j < 32) && d.portUp j) (replayFrom j ((h.seq + 65537 - h.flits) % 65536))

/-! ### A port goes down (R532 to R534, R547) -/

/-- The traffic of a lost port: what it had not delivered is discarded; this device's own windowed packets and requests go
over other ports at once, and a SERVICE packet ends its service. -/
def portTraffic (j : Nat) : Act := .dyn fun d =>
  let p := d.port j
  let lost := p.held.map HeldPkt.pkt ++ p.wait
  .all [setPort j fun p => { Port.fresh with peer := p.peer }, servicesLost lost,
    Act.each (d.eng.fab.e2e.filter fun x => x.port == some j) resendE2e,
    Act.each (d.eng.fab.reqs.filter fun x => x.port == some j) resendReq]

/-- A port that carried traffic counts as lost and enters a state. -/
def portLoses (j state : Nat) : Act :=
  .all [Act.set (FAB_PORT_STATUS_WIDTH j) 0, portState j state,
    Act.raise (FAB_PORT_STATUS_LOSS j) (FAB_PORT_LOSS_LOSSES j)]

/-- LINK_LOSS: the port is fenced and reported (R533). -/
def actLinkLoss (j : Nat) : Act := .dyn fun d =>
  Act.when (decide (j < 32) && d.portUp j)
    (.all [portLoses j 3, fence (unitPort j), portTraffic j, report fkLinkLoss 0xFF (unitPort j) []])

/-- A port reset is in progress, or over (PWR_PORT_BUSY). -/
def portBusy (j : Nat) (b : Bool) : Act := .dyn fun d =>
  let m := d.fld PWR_PORT_BUSY_PORTS
  Act.set PWR_PORT_BUSY_PORTS (if b then m ||| 2 ^ j else if bit m j then m - 2 ^ j else m)

/-- PORT_RESET: each named port loses what it carried and trains again (R94, R534); a duplicate window stays. A reset of a
port already resetting is merged with the first (R95); a fenced port does not train. -/
def actPortReset (mask : Nat) : Act :=
  Act.each (upTo 32 (bit mask)) fun j => .dyn fun d =>
    if bit (d.fld PWR_PORT_BUSY_PORTS) j then .skip
    else if d.portFenced j then Act.count PWR_EVENT_COUNT_PORT 1
    else .all [Act.count PWR_EVENT_COUNT_PORT 1, portBusy j true,
      if d.portUp j then portLoses j 1 else portState j 1, portTraffic j]

/-- LASER_LOSS: the light of module m is gone; its eight ports are fenced under one record (R534, R666). -/
def actLaserLoss (m : Nat) : Act := .dyn fun d =>
  let ports := (List.range 8).map fun i => 8 * m + i
  Act.when (decide (m < 4) && bit (d.fld FAB_LASER_PRESENT) m)
    (.all [Act.set FAB_LASER_PRESENT (d.fld FAB_LASER_PRESENT - 2 ^ m),
      Act.each ports fun j => .all [Act.when (d.portUp j) (portLoses j 3), portBusy j false, fence (unitPort j)],
      Act.each (ports.filter d.portUp) portTraffic,
      report fkLaserLoss 0xFF (unitPort (8 * m)) []])

/-- LASER_LIGHT_RESTORED (R525). -/
def actLaserRestored (m : Nat) : Act := .dyn fun d =>
  Act.when (decide (m < 4)) (Act.set FAB_LASER_PRESENT (d.fld FAB_LASER_PRESENT ||| 2 ^ m))

/-! ### Training (R526 to R529) -/

/-- Packets that had no port leave where a port has come into service. -/
def reroute : Act := .dyn fun d =>
  .all [updFab fun f => { f with
      unrouted := []
      e2e := f.e2e.map fun x => if f.unrouted.contains x.pkt then { x with port := d.choosePort x.pkt } else x
      reqs := f.reqs.map fun x => if x.port.isNone then { x with port := d.choosePort x.pkt } else x },
    Act.each d.eng.fab.unrouted fabRoute]

/-- PORT_TRAINED: the lane groups that passed (0 none, 1 lanes 0-3, 2 lanes 4-7, 3 all), what the peer tells, and the
round trip in fcycles of 0.625 ns. -/
def actPortTrained (j width slot port : Nat) (mgr : Bool) (job : Option Nat) (rank rtt : Nat) : Act := .dyn fun d =>
  let st := d.fld (FAB_PORT_STATUS_STATE j)
  let own := d.eng.pwr.straps.slot
  if 32 ≤ j || d.portFenced j || !(st == 0 || st == 1) || d.fld PWR_BOOT_STATUS_PHASE < 6 then .skip
  else if width % 4 = 0 then .seq (portBusy j false) (portState j 0)
  else
    let state := if 4 ≤ j && (slot % 8 != own ^^^ (j / 4) || port % 32 != j) then 4
      else if d.retryBudget < rtt * 5 then 5
      else 2
    .all [portBusy j false, setPort j fun _ => { Port.fresh with peer := job },
      Act.set (FAB_PORT_STATUS_WIDTH j) (width % 4), portState j state,
      Act.set (FAB_PORT_STATUS_PEER_SLOT j) (slot % 8), Act.set (FAB_PORT_STATUS_PEER_PORT j) (port % 32),
      Act.setB (FAB_PORT_STATUS_PEER_MGR j) mgr, Act.set (FAB_PORT_STATUS_PEER_RANK j) rank,
      Act.set (FAB_PORT_RTT_FCYCLES j) rtt, peerJoin j, Act.when (state == 2) reroute]

/-- PORT_TRAIN_RETRY: a DOWN port trains again; so does a lost one whose fence a base load has lifted (R526, R533). -/
def actPortTrainRetry (j : Nat) : Act := .dyn fun d =>
  let st := d.fld (FAB_PORT_STATUS_STATE j)
  Act.when (decide (j < 32) && !d.portFenced j && (st == 0 || st == 3) && decide (6 ≤ d.fld PWR_BOOT_STATUS_PHASE))
    (portState j 1)

/-! ### TC0 load (R550) -/

/-- TC0_LOAD_WINDOW: the bytes of TC0 sent in the window, and those that the trained rate carries in one. -/
def actTc0LoadWindow (j tc0 cap : Nat) : Act := .dyn fun d =>
  Act.when (decide (j < 32) && d.portUp j && cap != 0)
    (.all [Act.set (FAB_PORT_TC0_LOAD j) (min 1000 (tc0 * 1000 / cap)), Act.when (decide (cap < tc0 * 8)) (Act.add (FAB_PORT_TC0_OVER j) 1)])

/-! ### Commands -/

def execFabricFlit (j : Nat) (good : Bool) (seq ack ty credits crTc crVl : Nat) (peer : Option Nat) (s : State) :
    Host.Outcome State Fault Refusal :=
  cmd (actFabricFlit j good seq ack ty credits crTc crVl peer) s
def execFabricNak (j seq : Nat) (s : State) : Host.Outcome State Fault Refusal := cmd (actFabricNak j seq) s
def execFabricReplayTimeout (j : Nat) (s : State) : Host.Outcome State Fault Refusal := cmd (actFabricReplayTimeout j) s
def execLinkLoss (j : Nat) (s : State) : Host.Outcome State Fault Refusal := cmd (actLinkLoss j) s
def execPortReset (mask : Nat) (s : State) : Host.Outcome State Fault Refusal := cmd (actPortReset mask) s
def execLaserLoss (m : Nat) (s : State) : Host.Outcome State Fault Refusal := cmd (actLaserLoss m) s
def execLaserLightRestored (m : Nat) (s : State) : Host.Outcome State Fault Refusal := cmd (actLaserRestored m) s
def execPortTrained (j width slot port : Nat) (mgr : Bool) (job : Option Nat) (rank rtt : Nat) (s : State) :
    Host.Outcome State Fault Refusal :=
  cmd (actPortTrained j width slot port mgr job rank rtt) s
def execPortTrainRetry (j : Nat) (s : State) : Host.Outcome State Fault Refusal := cmd (actPortTrainRetry j) s
def execTc0LoadWindow (j tc0 cap : Nat) (s : State) : Host.Outcome State Fault Refusal := cmd (actTc0LoadWindow j tc0 cap) s

end Sys2Proof.Machine
end

