-- ==== Sys2Proof/Machine/Power.lean ====
section
/-! DEFINITION. Power, reset kinds and the boot phases (03, 04). -/

namespace Sys2Proof.Machine

/-! ### The supply (R75 to R78, R85) -/

/-- Nothing is left of the device but its power state; device memory keeps what it holds until DEFAULT is reached (R86,
R92); free values go on. -/
def coldState (f : Pwr → Pwr) : Act := .all [
  .forget 0 (2 ^ 27), .eng fun e => { Eng.init with free := e.free, pwr := f e.pwr }]

/-- The quires after a loss of regulation: idle, their leaves with no defined contents. -/
def lostQuires (l : List (Nat × Nat × Byte)) : Store Quire :=
  (l.filter fun x => decide (x.1 < 1536) && decide (x.2.1 < 524288)).foldl (fun qs x =>
    let q := Store.get idleQuire x.1 qs
    Store.put idleQuire x.1 { q with leaf := Store.put zeroByte x.2.1 x.2.2 q.leaf } qs) []

/-- After a loss of regulation device memory, leaves, registers and caches hold no defined contents (R76, R86; log 97). -/
def lostState (f : Pwr → Pwr) : Act := .dyn fun d => .all [
  .forget 0 (2 ^ 27), .zero 0 (2 ^ 46),
  Act.each (Config.lostRegs d.eng.free) fun x => .reg (x.1 % 2 ^ 27) x.2,
  Act.each (Config.lostMem d.eng.free) fun x => .byte (x.1 % 2 ^ 46) x.2,
  .eng fun e => { Eng.init with free := e.free + 1, pwr := f e.pwr, quires := lostQuires (Config.lostLeaves e.free) }]

/-- Change the power state. -/
def updPwr (f : Pwr → Pwr) : Act := .eng fun e => { e with pwr := f e.pwr }

/-- REGULATOR_START: the rails are in range and RESET_N is low; a stop in progress runs to its end first (R77, R85). -/
def actRegulatorStart : Act := .dyn fun d =>
  let p := d.eng.pwr
  Act.when (!p.regulators && !p.resetN && !p.stopping)
    (coldState fun p => { Pwr.init with good := false, straps := p.straps })

/-- PWR_GOOD: every internal rail is in regulation (R78). -/
def actPwrGood : Act := .dyn fun d =>
  Act.when (d.eng.pwr.regulators && !d.eng.pwr.good) (updPwr fun p => { p with good := true })

/-- The regulators switch off: PWR_GOOD goes low, the alerts are released, and nothing the device held is defined any more
(R76, R78, R86, R580). -/
def regulatorsOff : Act := .dyn fun d =>
  Act.when d.eng.pwr.regulators
    (lostState fun p => { Pwr.init with regulators := false, good := false, resetN := p.resetN, straps := p.straps })

/-- Steps 3 and 4 of R83: the snapshot being written is never marked complete, and of all that waits to leave over the
fabric or the link only fault records and answers are still sent. -/
def stopTraffic : Act := .all [snapshotFails 6,
  .eng fun e =>
    let stays := fun k : Pkt => k.kind == pkFaultRecord
    { e with
      pwr := { e.pwr with stopping := true }
      axl := { e.axl with reqWait := [], wait := e.axl.wait.filter fun m => opClass m.op != 0 }
      fab := { e.fab with
        blocked := e.fab.blocked.filter fun x => stays x.1
        unrouted := e.fab.unrouted.filter stays
        own := e.fab.own.filter stays
        ports := e.fab.ports.foldl (fun s x =>
          Store.put (fun _ => Port.fresh) x.1 { x.2 with wait := x.2.wait.filter stays } s) [] } }]

/-- A power-fail stop begins, whatever RESET_N (R82, R83, R85): the flag, the POWER_FAIL record, then nothing more is
dispatched or sent. A stop in progress is not begun again. -/
def powerFailStop (flag : Fld) : Act := .dyn fun d =>
  Act.when (d.eng.pwr.regulators && !d.eng.pwr.stopping)
    (.all [Act.mark flag, report fkPowerFail 0xFF 0 [], stopTraffic])

/-- VIN_UV_WARN (R82). -/
def actVinUvWarn : Act := powerFailStop PWR_STATUS_UV_WARN

/-- The hottest of some readings, the first of equal ones. -/
def hottest (ts : List (Nat × Nat)) : Nat × Nat :=
  match ts with
  | [] => (0, 0)
  | x :: t => t.foldl (fun m y => if signed 16 m.2 < signed 16 y.2 then y else m) x

/-- A reading of a junction sensor takes the place of that sensor's last one, and PWR_TEMP_MAX shows the hottest of the
sensors' last readings (R96). DESIGN CHOICE (log 105): the hottest junction now, not the highest since reset, and a sensor
counts from its first reading. -/
def tempSeen (sensor tj : Nat) : Act := .dyn fun d =>
  let ts := (sensor, tj % 65536) :: d.eng.pwr.temps.filter fun x => x.1 != sensor
  .all [updPwr fun p => { p with temps := ts }, Act.set PWR_TEMP_MAX_TJ (hottest ts).2,
    Act.set PWR_TEMP_MAX_SENSOR (hottest ts).1]

/-- THERMAL_TRIP: a sensor has reached 110 degrees; tj counts sixteenths of a degree. The flag is set in a running stop as
well (R82, R96). -/
def actThermalTrip (sensor tj : Nat) : Act := .dyn fun d =>
  Act.when (d.eng.pwr.regulators && decide (sensor < 40) && decide (110 * 16 ≤ signed 16 tj))
    (.all [tempSeen sensor tj, Act.mark PWR_STATUS_THERM_TRIP, powerFailStop PWR_STATUS_THERM_TRIP])

/-- STOP_REGULATORS_OFF: 100 microseconds after the stop began (R83). -/
def actStopRegulatorsOff : Act := .dyn fun d => Act.when d.eng.pwr.stopping regulatorsOff

/-- VIN_COLLAPSE (R75). -/
def actVinCollapse : Act := regulatorsOff

/-- VIN_OV_TRIP (R75). -/
def actVinOvTrip : Act := regulatorsOff

/-- AUX_RAIL_FAULT (R75). -/
def actAuxRailFault : Act := regulatorsOff

/-- PLL_LOSS_OF_LOCK (R89). -/
def actPllLoss : Act := regulatorsOff

/-- A POWER_WARN event (R197). -/
def powerWarn (cause : Nat) : Act := .dyn fun d =>
  postHost 4 (leBytes 2 cause ++ leBytes 2 (d.fld PWR_TEMP_MAX_TJ))
    (leBytes 2 (d.fld PWR_TEMP_MAX_SENSOR) ++ leBytes 2 (d.fld PWR_VIN_VIN_MV)) []

/-- VIN_OV_WARN: VIN has risen above 57.0 V; a device without power does nothing (R75, R76, R96, R204). -/
def actVinOvWarn : Act := .dyn fun d =>
  Act.when d.eng.pwr.regulators
    (.all [Act.raise PWR_STATUS_OV_WARN PWR_WARN_COUNT_OV, Act.count PWR_EVENT_COUNT_WARNINGS 1, powerWarn 0])

/-- THERM_WARN: a sensor has risen above PWR_THERM_WARN.DEG_C; a device without power does nothing (R76, R86, R96). -/
def actThermWarn (sensor tj : Nat) : Act := .dyn fun d =>
  Act.when (d.eng.pwr.regulators && decide (sensor < 40) && decide ((d.fld PWR_THERM_WARN_DEG_C * 16 : Int) < signed 16 tj))
    (.all [tempSeen sensor tj, Act.raise PWR_STATUS_THERM_WARN PWR_WARN_COUNT_THERM,
      Act.count PWR_EVENT_COUNT_WARNINGS 1, powerWarn 1])

/-- PWR_VIN_UPDATE (R96). -/
def actPwrVinUpdate (mv amp watt : Nat) : Act :=
  .all [Act.set PWR_VIN_VIN_MV mv, Act.set PWR_VIN_IIN_10MA amp, Act.set PWR_VIN_PIN_W watt]

/-- AUTO_GATE_ARRAY (R91): an idle array of a quire that is not gated anyway, under AUTO_GATE. -/
def actAutoGateArray (n a : Nat) : Act := .dyn fun d =>
  let u := n * 4 + a
  let m := (d.quire n).mtx
  let idle := m.queue == [] && m.loading == [] && m.passes == []
  Act.when (d.flag PWR_GATE_CTRL_AUTO_GATE && decide (a < 4) && d.quireActive n && idle && !d.eng.pwr.gatedArrays.contains u)
    (updPwr fun p => { p with gatedArrays := p.gatedArrays ++ [u] })

/-- AUTO_GATE_VECTOR (R91): an idle vector engine. -/
def actAutoGateVector (n : Nat) : Act := .dyn fun d =>
  let v := (d.quire n).vec
  Act.when (d.flag PWR_GATE_CTRL_AUTO_GATE && d.quireActive n && v.queue == [] && v.run == [] && !d.eng.pwr.gatedVecs.contains n)
    (updPwr fun p => { p with gatedVecs := p.gatedVecs ++ [n] })


/-! ### Boot (R97 to R107) -/

/-- The stamp at the end of phase i. -/
def endPhase (i : Nat) : Act := .dyn fun d => .reg (PWR_BOOT_END (i - 1)) d.eng.stamp

/-- A fatal result (R98, R99): FAILED, and the BOOT_FAILED record over MCTP. -/
def bootFailed (code : Nat) : Act :=
  .all [Act.set PWR_BOOT_STATUS_FAIL_CODE code, report fkBootFailed 0xFF 0 [], setPhase 0xF]

/-- RESET_RELEASE: the straps are sampled and boot begins; without power, or in a power-fail stop, which runs to its end,
RESET_N is high and nothing begins (R80, R85, R88, R92, R95, R97, R618). -/
def actResetRelease (mgr : Bool) (feed slot : Nat) : Act := .dyn fun d =>
  let p := d.eng.pwr
  if p.resetN then .skip
  else if !p.good || p.stopping then updPwr fun p => { p with resetN := true }
  else .all [.eng fun e => { e with
      stamp := 0
      pwr := { e.pwr with resetN := true, straps := { mgr := mgr, feed := feed % 8, slot := slot % 8 } } },
    setPhase 1, extend 0 0x01 (digestBytes Config.romDigest)]

/-- COLD_RESET: RESET_N falls. At once, except during a power-fail stop, which runs to its end (R81, R85, R95). -/
def actColdReset : Act := .dyn fun d =>
  let p := d.eng.pwr
  if !p.resetN then .skip
  else if p.stopping || !p.regulators then updPwr fun p => { p with resetN := false }
  else coldState fun p => { Pwr.init with good := p.good, straps := p.straps }

/-- A unit that fails during boot: fenced, counted and recorded (R103 to R106). -/
def bootFence (kind u : Nat) : Act := .dyn fun d =>
  if d.fenced u then .skip
  else .all [fence u, report kind 0xFF u []]

/-- Narrow an array to 8 x 7 (R103). -/
def narrowArray (u col : Nat) : Act := .dyn fun d =>
  if d.eng.cfg.narrowed.any fun x => x.1 == u then .skip
  else .all [.eng fun e => { e with cfg := { e.cfg with narrowed := e.cfg.narrowed ++ [(u, col % 8)] } },
    Act.count PWR_BOOT_STATUS_NARROWED 1, ringEvent (u / 4) evNarrow (u % 4 + 4 * (col % 8)), report fkNarrowed 0xFF (0x20000000 + u) []]

/-- Disable ways of a folio cache; more than 4 fence the folio's 16 signatures (R104). -/
def disableWays (folio n : Nat) : Act :=
  .all [.eng fun e => { e with cfg := { e.cfg with waysOff := Store.put zeroNat folio n e.cfg.waysOff } },
    Act.when (decide (4 < n)) (Act.each (List.range 16) fun i => bootFence fkBistFail (unitSig (folio * 16 + i)))]

/-- BIST (R97, R98, R103 to R106): the failing units, the arrays with one failing column, the failing ways by folio, the
failing optical engines, and a fatal code (0: none). -/
def actBist (fences : List Nat) (narrow ways : List (Nat × Nat)) (engines : List Nat) (fatal : Nat) : Act :=
  .dyn fun d =>
  Act.when (d.fld PWR_BOOT_STATUS_PHASE == 1) (.all [
    Act.each (mergeArrays (fences.filter fun u => unitIdOk u && u != 0)) (bootFence fkBistFail),
    Act.each (narrow.filter fun x => decide (x.1 < 6144)) fun x => narrowArray x.1 x.2,
    Act.each (ways.filter fun x => decide (x.1 < 8)) fun x => disableWays x.1 x.2,
    Act.each (engines.filter (· < 8)) fun i => Act.each (List.range 4) fun k => bootFence fkBistFail (unitPort (i * 4 + k)),
    .eng fun e => { e with cfg := { e.cfg with bistFences := e.cfg.fences } },
    .dyn fun d =>
      if fatal ∈ [1, 2, 3, 6] then bootFailed fatal
      else if (List.range 1536).all d.quireFenced then bootFailed 4
      else .all [endPhase 1, setPhase 2]])

/-- DUNE_TRAIN (R97, R98): failing channels, and dune bases that fail whole. -/
def actDuneTrain (chans bases : List Nat) : Act := .dyn fun d =>
  Act.when (d.fld PWR_BOOT_STATUS_PHASE == 2) (.all [
    Act.each (chans.filter (· < 512)) fun c => bootFence fkTrainFail (unitChan c),
    Act.each (bases.filter (· < 32)) fun b => Act.each (List.range 16) fun k =>
      bootFence fkTrainFail (unitChan (b * 16 + k)),
    .dyn fun d =>
      if (List.range 512).all d.chanFenced then bootFailed 5
      else .all [endPhase 2, setPhase 3]])

/-- Eight words of a 64-byte value. -/
def wordsOf (off n : Nat) (bs : List Byte) : Act :=
  Act.each (List.range n) fun i => .reg (off + 8 * i) (BitVec.ofNat 64 (leAt bs (8 * i) 8))

/-- PUF (R97, R609 to R611). -/
def actPuf (ok : Bool) : Act := .dyn fun d =>
  let key := leBytes 64 Config.identityKey.toNat
  Act.when (d.fld PWR_BOOT_STATUS_PHASE == 3) (.all [
    if ok then .all [Act.set SEC_STATUS_IDENTITY 1, wordsOf (SEC_ID_PUBKEY 0) 8 key,
        wordsOf (SEC_ID_DIGEST 0) 4 (sm3 key)]
    else Act.set PWR_BOOT_STATUS_PUF_FAILED 1,
    endPhase 3, setPhase 4, axlState 1])

/-- READY follows once the FABRIC phase has ended and the Axoft Link has trained (R100, R101, R120, R196). -/
def readyIf : Act := .dyn fun d =>
  if d.fld PWR_BOOT_STATUS_PHASE == 6 && d.eng.pwr.fabricEnded && d.axlUp then
    .all [setPhase 7, .dyn fun d => bootLog (evtRecord d 5 [] (leBytes 8 (d.reg PWR_BOOT_STATUS).toNat) [])]
  else .skip

/-- DEFAULT_PHASE_DONE: the configuration of R73 stands, memory is zero over the channels not fenced, and FABRIC starts
(R97, R107, R469). -/
def actDefaultPhaseDone : Act := .dyn fun d =>
  Act.when (d.fld PWR_BOOT_STATUS_PHASE == 5) (.all [
    .eng fun e => { e with cfg := { e.cfg with leftOut := e.cfg.fences } },
    zeroAll, .dyn fun d => Act.set CFG_DEFAULT_MEM_BYTES (d.presented 0), endPhase 5, setPhase 6])

/-- FABRIC_PHASE_END (R101): READY at once, or once the Axoft Link has trained (R100). -/
def actFabricPhaseEnd : Act := .dyn fun d =>
  Act.when (d.fld PWR_BOOT_STATUS_PHASE == 6 && !d.eng.pwr.fabricEnded)
    (.all [endPhase 6, updPwr (fun p => { p with fabricEnded := true }), readyIf])

/-! ### Warm reset (R92, R95) -/

/-- The registers that a warm reset keeps: PWR_EVENT_COUNT, PWR_WARN_COUNT, the RES_ counters with their records (R92, R96,
R607), and CFG_BAD_ACCESS, which counts since cold reset (R33). -/
def keptRegs (d : Dev) : List (Nat × DWord) :=
  (RES_SNAP_TIME, putField 0 32 32 (d.fld RES_SNAP_TIME_COMPLETED)) ::
  ([PWR_EVENT_COUNT, PWR_WARN_COUNT, RES_COUNT_A, RES_COUNT_B, RES_COUNT_C, CFG_BAD_ACCESS] ++
    (List.range 128).map fun i => RES_RECORD 0 0 + 8 * i).map fun off => (off, d.reg off)

/-- A quote of the board management controller is in progress or waits (R622). -/
def quoteByMctp (s : Sec) : Bool := (s.quote.toList ++ s.quoteNext.toList).any fun x => x.1 == 1

/-- WARM_RESET: a write of PWR_RESET_CTRL with KEY 0x5741 (R92, R96); a power-fail stop goes on (R85). DESIGN CHOICE (log 106):
every register that R92 does not name, the settings of PWR_ and RES_ and the W1C flags among them, goes back to its reset
value. DESIGN CHOICE (log 112): a GET_QUOTE whose quote it abandons (R623) is answered REFUSED, since every request receives a
response (R30). -/
def actWarmReset (v : Nat) : Act := .dyn fun d =>
  if field v 16 16 != 0x5741 || !bit v 0 then .skip
  else
    let c := d.eng.cfg
    let bound := keptRegs d
    .all [.forget 0 (2 ^ 27),
      .eng fun e => { Eng.init with
        free := e.free
        mgr := { Mgr.init with failures := e.mgr.failures }
        nextTask := e.nextTask
        cfg := Cfg.default c.bistFences c.narrowed c.waysOff
        pwr := { Pwr.init with resetN := true, stopping := e.pwr.stopping, straps := e.pwr.straps }
        recs := { e.recs with
          answer := if quoteByMctp e.sec then mctpHead ++ [mcRefused] else []
          ringSeen := false
          logCopied := false }
        mon := Eng.init.mon },
      Act.each bound fun x => .reg x.1 x.2,
      Act.each d.eng.mon.hang fun s => hangError s heAbandoned,
      Act.count PWR_EVENT_COUNT_WARM 1, Act.set PWR_BOOT_STATUS_WARM 1, setPhase 2,
      extend 0 0x01 (digestBytes Config.romDigest)]

/-! ### Partition reset (R92, R93, R95) -/

/-- A write of PWR_PART_RESET: unformed partitions are ignored, a second request is merged with the first. -/
def actPartitionReset (mask : Nat) : Act := .dyn fun d =>
  let st := d.fld CFG_IMAGE_STATUS_STATE
  Act.each ((formedList d.eng.cfg.base).filter fun p => bit mask p && !bit (d.fld PWR_RESET_BUSY_PARTS) p) fun p =>
    .all [mayRecord (.dyn fun d => Act.set PWR_RESET_BUSY_PARTS (d.fld PWR_RESET_BUSY_PARTS ||| 2 ^ p)),
      Act.count PWR_EVENT_COUNT_PARTITION 1,
      if st == 0 || st == 4 then .all [
          .eng fun e => { e with img := { e.img with resetParts := p :: e.img.resetParts } }, clearPartition p]
      else updPwr fun x => { x with heldResets := x.heldResets ++ [p] }]

/-- PARTITION_RESET_DONE: the channels are zero and the reset ends (R92, R484). -/
def actPartitionResetDone (p : Nat) : Act := .dyn fun d =>
  Act.when (bit (d.fld PWR_RESET_BUSY_PARTS) p && !d.eng.pwr.heldResets.contains p &&
      !(d.eng.axl.recalls.any fun r => keyPart r.line == p))
    (.all [zeroPart p, Act.set PWR_RESET_BUSY_PARTS (d.fld PWR_RESET_BUSY_PARTS - 2 ^ p)])

end Sys2Proof.Machine
end

