-- ==== Sys2Proof/Machine/Units.lean ====
section
/-! DEFINITION. Sequencers that disagree or hang (18), and the barrier watchdog (07). -/

namespace Sys2Proof.Machine

/-! ### Lock-step mismatches and unit watchdogs (R571, R572, R575, R576) -/

/-- A dune base: its 16 channels are fenced under one record, of its partition where one owns them all. -/
def duneMismatch (b : Nat) : Act := .dyn fun d =>
  let cs := (List.range 16).map fun k => b * 16 + k
  let owners := (cs.filterMap d.chanPart).eraseDups
  let p := match owners with
    | [p] => p
    | _ => 0xFF
  Act.when (!cs.all d.chanFenced)
    (.all [endTasks (cs.flatMap d.chanTasks).eraseDups fkSeqDune, Act.each cs fun c => fenceChan c fkSeqDune,
      report fkSeqDune p (unitChan (b * 16)) []])

/-- A fabric port. -/
def portMismatch (j : Nat) : Act := .dyn fun d =>
  Act.when (!d.portFenced j)
    (.all [Act.when (d.portUp j) (portLoses j 3), portBusy j false, fence (unitPort j), portTraffic j,
      report fkSeqPort 0xFF (unitPort j) []])

/-- A spine router: the device stops as R99 states. -/
def spineMismatch : Act := .seq (report fkSpine 0xFF 0 []) (setPhase 0xF)

/-- A mismatch of a unit: class 0 quire, 1 array (quire * 4 + array), 2 dune base, 3 port, 4 spine router. -/
def mismatch (cls n : Nat) : Act :=
  match cls with
  | 0 => Act.when (decide (n < 1536)) (fenceQuire n fkSeqQuire (unitQuire n) [])
  | 1 => Act.when (decide (n < 6144)) (fenceArray (n / 4) (n % 4) fkSeqArray)
  | 2 => Act.when (decide (n < 32)) (duneMismatch n)
  | 3 => Act.when (decide (n < 32)) (portMismatch n)
  | _ => spineMismatch

/-- SEQUENCER_MISMATCH (R571). -/
def actSequencerMismatch (cls n : Nat) : Act := mismatch cls n

/-- UNIT_WATCHDOG: a firing is handled as a mismatch of the unit (R572). -/
def actUnitWatchdog (cls n : Nat) : Act := mismatch cls n

/-! ### The barrier watchdog (R244 to R247) -/

/-- The code of a thread's state (R216). -/
def Thread.code : Thread → Nat
  | .active => 0
  | .waitMem _ => 1
  | .waitArrive _ _ => 2
  | .waitTally _ _ _ => 3
  | .waitBarC _ => 4
  | .waitBarG _ => 4
  | .waitColl _ _ => 5
  | .exited => 6

/-- A lane has arrived at the instance of a stall entry, or has exited. -/
def Stall.arrived (st : Stall) (c : Caravan) (l : Nat) : Bool :=
  c.exited l || (match st.kind with
    | 1 => c.thread l == .waitBarC st.mask
    | 2 => c.thread l == .waitBarG st.bar
    | _ => c.thread l == .waitColl st.pc st.mask)

/-- What a stall record says of an instance: ARRIVED, and of its holders the slot, the lanes, and state and program
counter of the lowest one. -/
structure StallView where
  arrived : Nat
  slot : Nat
  lanes : List Nat
  state : Nat
  pc : Nat
  deriving DecidableEq, Repr

/-- The view of a caravan's holders among some lanes. -/
def Caravan.holders (c : Caravan) (arrived : Nat) (ls : List Nat) : StallView :=
  match ls.head? with
  | some l => { arrived := arrived, slot := c.slot, lanes := ls, state := (c.thread l).code, pc := c.pc l / 8 }
  | none => { arrived := arrived, slot := 0, lanes := [], state := 0, pc := 0 }

/-- The view of an instance as it stands; a caravan that has left its slot has exited (R239). -/
def Quire.stallView (q : Quire) (st : Stall) : StallView :=
  let none' : StallView := { arrived := 0, slot := 0, lanes := [], state := 0, pc := 0 }
  if st.kind = 2 then
    let ms := (q.members st.task st.gath).filter fun c => bit st.mask c.index
    let whole := ms.filter fun c => lanes.all (st.arrived c)
    let size := ((q.gathering st.task st.gath).map fun g => g.slots.length).getD 0
    let left := (upTo size (bit st.mask)).filter fun i => !(ms.any fun c => c.index == i)
    let map := (left ++ whole.map Caravan.index).foldl (fun m i => m ||| 2 ^ i) 0
    let holding := ms.filter fun c => !lanes.all (st.arrived c)
    match holding.find? fun c => holding.all fun x => decide (c.index ≤ x.index) with
    | some c => c.holders map (lanes.filter fun l => !st.arrived c l)
    | none => { none' with arrived := map }
  else match q.caravan st.slot with
    | some c =>
      let ls := maskLanes st.mask
      c.holders (laneMask (ls.filter (st.arrived c))) (ls.filter fun l => !st.arrived c l)
    | none => none'

/-- The stall record of an instance in the ring of four (THR_STALL_REC). -/
def stallRecord (n k : Nat) (st : Stall) : Act := .dyn fun d =>
  let v := (d.quire n).stallView st
  .all [.reg (THR_STALL_REC0 n k) d.eng.stamp, .reg (THR_STALL_REC1 n k) 0, Act.set (THR_STALL_REC1_VALID n k) 1,
    Act.set (THR_STALL_REC1_KIND n k) st.kind, Act.set (THR_STALL_REC1_SLOT n k) st.slot,
    Act.set (THR_STALL_REC1_BAR_ID n k) st.bar, Act.set (THR_STALL_REC1_PC n k) (st.pc / 8),
    Act.set (THR_STALL_REC1_HOLDER_SLOT n k) v.slot, Act.set (THR_STALL_REC1_HOLDER_STATE n k) v.state,
    Act.set (THR_STALL_REC2_MASK n k) st.mask, Act.set (THR_STALL_REC2_ARRIVED n k) v.arrived,
    Act.set (THR_STALL_REC3_HOLDERS n k) (laneMask v.lanes), Act.set (THR_STALL_REC3_HOLDER_PC n k) v.pc]

/-- Every thread of a waiting collective's mask has arrived: it waits for its issue, not for a thread (R241, R247). -/
def Quire.collComplete (q : Quire) (st : Stall) : Bool :=
  st.kind == 3 && match q.caravan st.slot with
    | some c => (maskLanes st.mask).all (st.arrived c)
    | none => true

/-- BARRIER_WATCHDOG: the i-th waiting instance of a quire has waited THR_WDOG.LIMIT tcycles; it fires once. -/
def actBarrierWatchdog (n i : Nat) : Act := .dyn fun d =>
  match (d.quire n).stalls[i]? with
  | none => .skip
  | some st =>
    if d.fld (THR_WDOG_LIMIT n) = 0 || st.fired.isSome || (d.quire n).collComplete st then .skip
    else
      let k := d.fld (THR_STALL_COUNT_FIRED n)
      .all [stallRecord n (k % 4) st, Act.add (THR_STALL_COUNT_FIRED n) 1,
        updQuire n fun q => { q with stalls := q.stalls.map fun x => if x == st then { x with fired := some k } else x },
        (match d.quirePart n with
         | some p => .all [Act.raise (PART_STATUS_BARRIER_STALL p) (PART_EVENT_COUNT_STALLS p),
             Act.when (d.flag (MON_PHANG_CTRL_ON_STALL p)) (hangRequest (p + 1) true)]
         | none => .skip),
        Act.when (d.flag (THR_WDOG_ACTION n)) (endTask st.task stFault fkBarrierTimeout)]

/-! ### Commands -/

def execSequencerMismatch (cls n : Nat) (s : State) : Host.Outcome State Fault Refusal := cmd (actSequencerMismatch cls n) s
def execUnitWatchdog (cls n : Nat) (s : State) : Host.Outcome State Fault Refusal := cmd (actUnitWatchdog cls n) s
def execBarrierWatchdog (n i : Nat) (s : State) : Host.Outcome State Fault Refusal := cmd (actBarrierWatchdog n i) s

end Sys2Proof.Machine
end

