-- ==== Sys2Proof/Machine/Views.lean ====
section
/-! DEFINITION. Reading a register (01, and the register tables of every chapter): the fields that show the state of the
device are computed when they are read; every other field reads as stored. -/

namespace Sys2Proof.Machine

/-- A value built from fields: lowest bit, width, value. -/
def fields (l : List (Nat × Nat × Nat)) : DWord := l.foldl (fun w f => putField w f.1 f.2.1 f.2.2) 0

/-- A bitmap of the numbers below n that pass a test. -/
def bitmap (n : Nat) (p : Nat → Bool) : Nat := (List.range n).foldl (fun m i => if p i then m + 2 ^ i else m) 0

/-- How many of the numbers below n pass a test. -/
def howMany (n : Nat) (p : Nat → Bool) : Nat := (upTo n p).length

/-- The word i of a digest. -/
def digestWord (h : BitVec 256) (i : Nat) : DWord := BitVec.ofNat 64 (h.toNat / 2 ^ (64 * i))

/-! ### Caravans and quires (R217, R250, R370, R413) -/

/-- The state of a caravan's slot (R217). -/
def Caravan.state (c : Caravan) : Nat :=
  if c.stopping then 4
  else if c.live == [] then 3
  else if lanes.any c.isActive then 1
  else 2

def Quire.slotState (q : Quire) (slot : Nat) : Nat :=
  match q.caravan slot with
  | some c => c.state
  | none => 0

/-- What the head of the vector queue waits for: 3 for register or row order. -/
def Quire.vecWait (q : Quire) : Nat :=
  match q.vec.queue with
  | [] => 0
  | o :: _ => if q.vec.free o then 0 else 3

/-- Physical failing column of an array (R103). -/
def Dev.badCol (d : Dev) (n a : Nat) : Nat :=
  match d.eng.cfg.narrowed.find? fun x => x.1 == n * 4 + a with
  | some x => x.2
  | none => 0

/-- A fenced or gated quire. -/
def Dev.quireDark (d : Dev) (n : Nat) : Bool := !d.quireActive n

/-- The registers of THR_ page n at an offset within it. -/
def Dev.thrView (d : Dev) (n o : Nat) (v : DWord) : DWord :=
  let q := d.quire n
  if o = 0 then fields [(0, 7, q.caravans.length), (8, 7, q.gaths.length), (16, 15, q.freeRegBytes),
    (32, 8, q.freePages.length)]
  else if 8 ≤ o ∧ o < 0x28 then
    fields ((List.range 16).map fun j => (4 * j, 4, q.slotState (16 * ((o - 8) / 8) + j)))
  else if o = 0x200 then fields [(0, 16, bitmap 16 fun c => (q.stream c).state == 1),
    (16, 16, bitmap 16 fun c => (q.stream c).state == 2), (32, 7, q.copies.length + q.gathers.length)]
  else if 0x300 ≤ o ∧ o < 0x400 then
    let k := (o - 0x300) / 8
    fields [(0, 32, q.counter k), (32, 1, bv (decide (16 ≤ k) && (q.stream (k - 16)).state != 0))]
  else if 0x400 ≤ o ∧ o < 0x480 then
    let s := q.stream ((o - 0x400) / 8)
    fields [(0, 16, s.next), (16, 16, min s.released s.rows), (32, 2, s.state), (34, 6, s.slot), (40, 1, bv s.write)]
  else v

/-- The registers of MTX_ page n. -/
def Dev.mtxView (d : Dev) (n o : Nat) (v : DWord) : DWord :=
  let q := d.quire n
  if o = 0 then fields [(0, 4, bitmap 4 (d.arrayNarrowed n)), (4, 4, bitmap 4 (d.arrayFenced n)),
    (8, 1, bv (d.sigFill (n / 12))), (9, 1, bv (!isRecto n)), (10, 2, d.factor n), (16, 4, d.badCol n 0),
    (20, 4, d.badCol n 1), (24, 4, d.badCol n 2), (28, 4, d.badCol n 3)]
  else if o = 8 then fields [(0, 4, q.mtx.queue.length), (4, 3, q.mtxWait.1), (8, 8, q.mtxWait.2)]
  else if o = 0x28 then fields [(0, 9, accTiles n)]
  else v

/-- The registers of VEC_ page n. -/
def Dev.vecView (d : Dev) (n o : Nat) (v : DWord) : DWord :=
  let q := d.quire n
  if o = 0 then fields [(0, 3, q.vec.queue.length), (4, 3, q.vecWait)] else v

/-! ### Partitions, queues and tallies (06) -/

/-- The configuration of DEFAULT or of a loaded base stands: the DEFAULT phase has ended (R97, R107). Before, the fields
that show a partition's work read their reset values (R6). -/
def Dev.defaultUp (d : Dev) : Bool := d.fld PWR_BOOT_STATUS_PHASE == 6 || d.fld PWR_BOOT_STATUS_PHASE == 7

/-- The registers of PART_ page p. -/
def Dev.partView (d : Dev) (p o : Nat) (v : DWord) : DWord :=
  let b := d.eng.cfg.base
  let blocks := fun k => if d.formed p then (queueBlocks b p).getD k 0 else 0
  if o = 0 then fields [(0, 1, bv (d.formed p)), (16, 8, if d.formed p then popBits (sigMap b p) 128 else 0),
    (24, 10, if d.formed p then popBits (chanMap b p) 512 else 0)]
  else if o = 8 then
    if d.formed p then fields [(0, 18, firstQueue b p), (32, 14, firstTally b p), (48, 15, tallyCount b p)] else 0
  else if o = 0x10 then fields [(0, 16, blocks 0), (16, 16, blocks 1), (32, 16, blocks 2), (48, 16, blocks 3)]
  else if o = 0x18 then fields [(0, 16, blocks 4)]
  else if o = 0x48 then putField (putField v 0 1 (bv (!d.defaultUp || d.quiesced p))) 1 1 (bv (d.eng.tasks.any fun t => t.part == p))
  else if o = 0x80 then fields [(0, 48, if d.formed p then d.presented p else 0)]
  else v

/-- QUE_ page q. -/
def Dev.queView (d : Dev) (q o : Nat) (v : DWord) : DWord :=
  match d.queuePart q with
  | none => 0
  | some _ => if o = 8 then putField v 17 3 (d.queueKind q) else v

/-! ### Training and reduction (13, 16) -/

/-- TRN_ page p. -/
def Dev.trnView (d : Dev) (p o : Nat) (v : DWord) : DWord :=
  if o = 0 then
    if d.trainingActive p then fields [(0, 13, d.accumCount p), (16, 1, d.lsMode p), (20, 4, d.prefetchLayers p), (24, 1, 1),
      (32, 32, d.lsGrowth p)]
    else fields [(16, 1, if d.formed p then d.lsMode p else 0)]
  else if o = 0x38 then putField v 32 7
    (listSum ((d.eng.quires.filter fun kv => d.quirePart kv.1 == some p).map fun kv =>
      (d.gathersHeld p kv.2).length))
  else v

/-- RED_ page p. -/
def Dev.redView (d : Dev) (p o : Nat) (v : DWord) : DWord :=
  let drop := d.dropSet p
  if o = 0x18 then
    if d.trainingActive p then fields [(0, 16, d.shardRanks p), (16, 5, d.redLevels p), (32, 16, drop.length),
      (48, 16, if d.holdsRank p && drop.contains d.partner then d.partner else 0xFFFF)]
    else fields [(48, 16, 0xFFFF)]
  else if o = 0x48 then putField v 0 17 (d.eng.red.sends.filter fun x => x.part == p).length
  else v

/-! ### Dunes (15) -/

/-- DUN_ page b. -/
def Dev.dunView (d : Dev) (b o : Nat) (v : DWord) : DWord :=
  let enc := fun c => match d.chanPart (b * 16 + c) with
    | some p => d.encrypts p
    | none => false
  if o = 0 then putField (putField v 0 16 (bitmap 16 fun c => d.chanFenced (b * 16 + c))) 32 16 (bitmap 16 enc)
  else if o = 0x10 then putField v 0 21 (d.eng.dune.folios.filter fun x => d.baseOf x.key == b).length
  else if 0x200 ≤ o ∧ o < 0x280 then
    let c := b * 16 + (o - 0x200) / 8
    fields [(0, 20, d.proofOn c),
      (20, 20, match d.chanPart c with
        | some p => d.frozenOn p c
        | none => 0),
      (40, 20, poolVersion d.eng.cfg.base)]
  else v

/-! ### The fabric, the managers, security and monitoring (17 to 20) -/

/-- FAB_ device-wide registers. -/
def Dev.fabView (d : Dev) (o : Nat) (v : DWord) : DWord :=
  if o = 0 then putField (putField (putField v 0 1 (bv d.isBoardMgr)) 1 1 (bv d.isJobMgr)) 4 6
    (howMany 32 fun j => d.fld (FAB_PORT_STATUS_STATE j) == 2)
  else if o = 0x10 then BitVec.ofNat 64 d.alignedStamp
  else if o = 0x38 then
    if d.isJobMgr then fields [(0, 16, d.eng.mgr.joined.length), (16, 16, d.eng.mgr.aligned.length),
      (32, 32, d.eng.mgr.refused)]
    else 0
  else v

/-- Counting units of a class in a partition (R629, R630). -/
def Dev.unitsOf (d : Dev) (p e : Nat) : Nat :=
  if !d.defaultUp then 0
  else if e < 4 then howMany 1536 fun n => d.quirePart n == some p && d.quireActive n
  else howMany 512 fun c => d.chanPart c == some p && !d.chanFenced c

/-- What the register that begins at an offset reads. -/
def Dev.regRead (d : Dev) (off : Nat) : DWord :=
  let v := d.reg off
  if off < 0x100000 then
    if 0x320 ≤ off ∧ off < 0x340 ∧ !d.flag CFG_UCODE_STATUS_SOURCE then
      digestWord Config.romUcodeDigest ((off - 0x320) / 8)
    else if off = CFG_POOLS then fields [(0, 32, poolReduction d.eng.cfg.base), (32, 32, poolVersion d.eng.cfg.base)]
    else v
  else if off < 0x200000 then
    if off = PWR_STATUS then putField v 1 1 (bv (d.eng.pwr.gatedArrays != [] || d.eng.pwr.gatedVecs != []))
    else if off = PWR_STAMP then d.eng.stamp
    else v
  else if off < 0x300000 then
    if off = SEC_STATUS then putField (putField v 2 4 d.eng.sec.signers.length) 6 1 (bv d.eng.sec.quote.isSome)
    else if SEC_ROOT_DIGEST 0 ≤ off ∧ off < SEC_ROOT_DIGEST 4 then
      digestWord Config.rootDigest ((off - SEC_ROOT_DIGEST 0) / 8)
    else v
  else if off < 0x400000 then
    if off = RES_JOB then
      if d.isJobMgr then fields [(0, 16, d.eng.mgr.drop.length), (16, 16, d.eng.mgr.filling.length), (32, 32, d.eng.mgr.failures)]
      else 0
    else v
  else if off < 0xC00000 then
    if off = MON_RING_STATUS then fields [(0, 1, bv d.recording), (1, 6, d.causes)]
    else if 0x800000 ≤ off ∧ 0x100 ≤ off % 0x10000 ∧ off % 0x10000 < 0x1A0 ∧ off % 0x20 = 0x18 then
      BitVec.ofNat 64 (d.unitsOf ((off - 0x800000) / 0x10000) ((off % 0x10000 - 0x100) / 0x20))
    else v
  else if off < 0xD00000 then
    if off = AXL_FILTER_STATUS then fields [(0, 26, d.eng.axl.dir.length), (32, 23, d.eng.axl.filter.length)]
    else if off = AXL_CONTAIN_COUNT then putField v 16 16 (min 65535 d.eng.axl.poisonTx)
    else v
  else if off < 0xE00000 then d.fabView (off - 0xD00000) v
  else if off < 0xF00000 then
    if off % 0x8000 = 0 then putField v 5 1 (bv (d.portFenced ((off - 0xE00000) / 0x8000))) else v
  else if 0xF01000 ≤ off ∧ off < 0xF03000 then d.trnView ((off - 0xF01000) / 0x80) (off % 0x80) v
  else if off = RED_MGR_STATUS then
    if d.isJobMgr then fields [(0, 1, bv d.eng.mgr.armed), (1, 1, bv d.eng.mgr.closed),
      (16, 16, d.eng.mgr.ranksDone.length), (32, 16, d.eng.mgr.ownersDone.length)]
    else 0
  else if 0x1001000 ≤ off ∧ off < 0x1003000 then d.redView ((off - 0x1001000) / 0x80) (off % 0x80) v
  else if 0x1100000 ≤ off ∧ off < 0x1500000 then d.dunView ((off - 0x1100000) / 0x20000) (off % 0x20000) v
  else if 0x1500000 ≤ off ∧ off < 0x1900000 then d.partView ((off - 0x1500000) / 0x10000) (off % 0x10000) v
  else if 0x1900000 ≤ off ∧ off < 0x1A00000 then
    if (d.tallyPart ((off - 0x1900000) / 0x40)).isSome then v else 0
  else if 0x2000000 ≤ off ∧ off < 0x3800000 then
    let n := off % 0x800000 / 0x1000
    if d.quireDark n then 0
    else if off < 0x2800000 then d.thrView n (off % 0x1000) v
    else if off < 0x3000000 then d.mtxView n (off % 0x1000) v
    else d.vecView n (off % 0x1000) v
  else if 0x4000000 ≤ off then d.queView ((off - 0x4000000) / 0x80) (off % 0x80) v
  else v

/-- Four bytes of the register window: a register, the upper half of a 64-bit one, or nothing (R9, R26, R28). -/
def Dev.readWord (d : Dev) (o : Nat) : Nat :=
  match regAt o with
  | some _ => (d.regRead o).toNat % 2 ^ 32
  | none =>
    match regAt (o - 4) with
    | some r => if r.wide ∧ 4 ≤ o then (d.regRead (o - 4)).toNat / 2 ^ 32 else 0
    | none => 0

/-- A register access is 4 or 8 bytes wide and naturally aligned (R25). -/
def accessOk (off width : Nat) : Bool := (width == 4 || width == 8) && off % width == 0

/-- An access of a good width and alignment reads its bytes from one instant (R26, R27). -/
def Dev.readAt (d : Dev) (off width : Nat) : Nat :=
  d.readWord off + (if width = 8 then 2 ^ 32 * d.readWord (off + 4) else 0)

end Sys2Proof.Machine
end

