-- ==== Sys2Proof/Machine/Security.lean ====
section
/-! DEFINITION. Signers, software measurements and quotes (19), and the MCTP commands (01, 18, 19). -/

namespace Sys2Proof.Machine

def updSec (f : Sec → Sec) : Act := .eng fun e => { e with sec := f e.sec }

/-! ### Signers (R612 to R615) -/

def sgLocked : Nat := 0x02
def sgFull : Nat := 0x01
def sgRoot : Nat := 0x03
def sgSignature : Nat := 0x04
def sgForm : Nat := 0x05
def sgDuplicate : Nat := 0x06
def sgBusy : Nat := 0x07

/-- Every byte of a list is 0. -/
def allZero (bs : List Byte) : Bool := bs.all (· == 0)

def snForm (r : List Byte) : Nat := leAt r 4 1
def snKinds (r : List Byte) : Nat := leAt r 5 1
def snId (r : List Byte) : Nat := leAt r 8 8
def snKey (r : List Byte) : List Byte := (r.drop 0x10).take 64
def snRoot (r : List Byte) : List Byte := (r.drop 0x50).take 64
def snEndorsement (r : List Byte) : List Byte := (r.drop 0xC0).take 64

/-- The record keeps the form of R612. -/
def snWellFormed (r : List Byte) : Bool :=
  leAt r 0 4 == 0x4E475349 && decide (snForm r ≤ 1) && decide (snKinds r < 8) && leAt r 6 2 == 0 &&
  allZero ((r.drop 0x90).take 0x30) && leAt (sm3 (snKey r)) 0 8 == snId r &&
  (snForm r == 0 || (allZero (snRoot r) && allZero (snEndorsement r) && !bit (snKinds r) 0))

/-- The first check of R614 that a record breaks, 0 when it is accepted. -/
def Dev.signerError (d : Dev) (r : List Byte) : Nat :=
  if d.flag SEC_STATUS_SIGNERS_LOCKED then sgLocked
  else if 8 ≤ d.eng.sec.signers.length then sgFull
  else if !snWellFormed r then sgForm
  else if snForm r = 0 ∧ sm3 (snRoot r) ≠ digestBytes Config.rootDigest then sgRoot
  else if snForm r = 0 ∧ !Config.sm2Verify (snRoot r) (r.take 0xC0) (snEndorsement r) then sgSignature
  else if d.eng.sec.signers.any fun s => s.id == snId r then sgDuplicate
  else 0

/-- The 256 bytes of a signer record are checked, and an accepted record takes the next entry (R614). -/
def signerTake (bs : List Byte) : Act := .dyn fun d =>
  let r := fit 256 bs
  let err := d.signerError r
  .all [updSec fun s => { s with loading := false }, Act.set SEC_SIGNER_STATUS_ERROR err,
    Act.when (err == 0) (.all [
      updSec fun s => { s with signers := s.signers ++ [{ id := snId r, kinds := snKinds r, pubkey := snKey r }] },
      extend 2 0x20 (sm3 r)])]

/-- SIGNER_LOAD: the record is read from the host (R614). While the link is down the read completes at once (R164, R166);
DESIGN CHOICE (log 110): poison is checked as a record of zeros. -/
def signerLoad : Act := .dyn fun d =>
  if d.eng.sec.loading then Act.set SEC_SIGNER_STATUS_ERROR sgBusy
  else if d.axlUp then updSec fun s => { s with loading := true } else signerTake []

/-- SIGNER_LOAD_DONE: the 256 bytes of the record have come. -/
def actSignerLoadDone (bs : List Byte) : Act := .dyn fun d => Act.when d.eng.sec.loading (signerTake bs)

/-- SIGNER_LOCK (R615). -/
def signerLock : Act := .dyn fun d =>
  Act.when (!d.flag SEC_STATUS_SIGNERS_LOCKED) (.seq (Act.set SEC_STATUS_SIGNERS_LOCKED 1) (extend 2 0x21 []))

/-- A write of SEC_SIGNER_CTRL. -/
def signerCtrl (v : Nat) : Act := .all [Act.when (bit v 0) signerLoad, Act.when (bit v 1) signerLock]

/-! ### Software measurements and the log (R620, R621) -/

/-- The 32 bytes of a group of four registers. -/
def Dev.words32 (d : Dev) (off : Nat) : List Byte := ((List.range 4).map fun i => leBytes 8 (d.reg (off + 8 * i)).toNat).flatten

/-- A write of SEC_EXTEND_CTRL. -/
def extendCtrl (v : Nat) : Act := .dyn fun d =>
  let k := field v 0 3
  let ty := field v 16 16
  if !bit v 3 then .skip
  else if (k = 6 ∨ k = 7) ∧ 0x100 ≤ ty then extend k ty (d.words32 (SEC_EXTEND_DATA 0))
  else Act.add SEC_COUNT_VERIFY_FAILS 1

/-- A write of SEC_LOG_HEAD: a value behind it or beyond the next SEQ is ignored. -/
def logRelease (seq : Nat) : Act := .dyn fun d =>
  let head := d.fld SEC_LOG_HEAD_SEQ
  Act.when (decide ((seq + 2 ^ 32 - head) % 2 ^ 32 ≤ d.eng.sec.logSeq - head)) (Act.set SEC_LOG_HEAD_SEQ seq)

/-! ### Quotes (R611, R622 to R624) -/

/-- What a quote captures at its start: bytes 0x000 to 0x1BF. -/
def Dev.quoteBody (d : Dev) (src : Nat) (nonce : List Byte) (mask : Nat) : List Byte :=
  leBytes 4 0x45544F51 ++ leBytes 2 1 ++ leBytes 1 mask ++
  leBytes 1 (bv (d.flag CFG_SEAL_STATUS_SEALED) + 2 * bv (d.flag CFG_ACTIVE_IMAGE_LOADED) +
    4 * bv (d.flag CFG_UCODE_STATUS_SOURCE) + 8 * bv (d.fld SEC_COUNT_LOG_LOST != 0) + 16 * src) ++
  leBytes 4 (d.reg CFG_DEVICE_ID).toNat ++ List.replicate 4 0 ++ leBytes 8 d.eng.sec.logSeq ++ leBytes 8 d.now ++
  d.words32 (SEC_ID_DIGEST 0) ++ fit 32 nonce ++
  ((List.range 8).map fun k => if bit mask k then d.meas k else List.replicate 32 0).flatten ++ List.replicate 0x60 0

/-- A quote starts. -/
def quoteStart (src : Nat) (nonce : List Byte) (mask : Nat) : Act := .dyn fun d =>
  updSec fun s => { s with quote := some (src, nonce, mask), captured := (d.quoteBody src nonce mask).take 0x1C0 }

/-- A write of SEC_QUOTE_CTRL: GO takes a quote; while one is in progress it is ignored (log 28). -/
def quoteCtrl (v : Nat) : Act := .dyn fun d =>
  if !bit v 8 || d.eng.sec.quote.isSome then .skip
  else .all [Act.set SEC_QUOTE_STATUS_VALID 0,
    if d.flag SEC_STATUS_IDENTITY then
      .all [Act.set SEC_QUOTE_STATUS_ERROR 0, quoteStart 0 (d.words32 (SEC_NONCE 0)) (field v 0 8)]
    else Act.set SEC_QUOTE_STATUS_ERROR 1]

/-! ### MCTP (R29, R30, R579) -/

/-- The response to an MCTP command: message type, vendor identifier, completion code and what the command adds (R30). -/
def answer (bs : List Byte) : Act := .eng fun e => { e with recs := { e.recs with answer := mctpHead ++ bs } }

/-- The response to an MCTP command is still to come. -/
def answerLater : Act := .eng fun e => { e with recs := { e.recs with answer := [] } }

def mcSuccess : Byte := 0x00
def mcBusy : Byte := 0x02
def mcEmpty : Byte := 0x03
def mcBadRequest : Byte := 0x04

/-- The sideband answers while the rails are in regulation and RESET_N is high, a FAILED boot included (R76, R99). -/
def mctp (a : Act) (s : State) : Host.Outcome State Fault Refusal :=
  raw (.dyn fun d => Act.when (d.eng.pwr.good && d.eng.pwr.resetN) a) s

/-- QUOTE_DONE: the quote is signed, and the next request starts (R622, R623). -/
def actQuoteDone : Act := .dyn fun d =>
  match d.eng.sec.quote with
  | none => .skip
  | some (src, _, _) =>
    let body := d.eng.sec.captured
    let q := body ++ leBytes 64 (Config.sm2Sign body).toNat
    .all [
      if src = 0 then .all [wordsOf (SEC_QUOTE 0) 64 q, Act.set SEC_QUOTE_STATUS_VALID 1] else answer (mcSuccess :: q),
      Act.add SEC_QUOTE_STATUS_COUNT 1,
      updSec fun s => { s with quote := none, quoteNext := none },
      match d.eng.sec.quoteNext with
      | some (src, nonce, mask) => quoteStart src nonce mask
      | none => .skip]

/-- GET_QUOTE (R622): REFUSED without an identity or on a FAILED device, BUSY while an MCTP request is pending. -/
def actGetQuote (nonce : List Byte) (mask : Nat) : Act := .dyn fun d =>
  let mine := fun x : Option (Nat × List Byte × Nat) => match x with
    | some (src, _, _) => src == 1
    | none => false
  if !d.flag SEC_STATUS_IDENTITY || d.fld PWR_BOOT_STATUS_PHASE == 0xF then answer [mcRefused]
  else if mine d.eng.sec.quote || mine d.eng.sec.quoteNext then answer [mcBusy]
  else .seq answerLater (if d.eng.sec.quote.isNone then quoteStart 1 nonce (mask % 256)
    else updSec fun s => { s with quoteNext := some (1, nonce, mask % 256) })

/-- GET_RECORD (R579): the oldest unreleased record. -/
def actGetRecord : Act := .dyn fun d =>
  match d.eng.recs.outbox with
  | [] => answer [mcEmpty]
  | r :: _ => answer (mcSuccess :: r.bytes)

/-- ACK_RECORD (R579): the record is released. -/
def actAckRecord (seq : Nat) : Act := .dyn fun d =>
  if d.eng.recs.outbox.any fun r => r.seq == seq then
    .seq (.eng fun e => { e with recs := { e.recs with outbox := e.recs.outbox.filter fun r => r.seq != seq } })
      (answer [mcSuccess])
  else answer [mcBadRequest]

/-- MCTP_UNKNOWN_COMMAND (R30): a command code of the table is not one. -/
def actMctpUnknown (code : Nat) : Act := Act.when (!(decide (1 ≤ code) && decide (code ≤ 4))) (answer [mcBadRequest])

/-- The register that holds four bytes of the window, if any. -/
def regHolding (o : Nat) : Option Nat :=
  if (regAt o).isSome then some o
  else match regAt (o - 4) with
    | some r => if r.wide && decide (4 ≤ o) then some (o - 4) else none
    | none => none

/-- Registers that the board management controller may read (R29). -/
def mctpMay (o : Nat) : Bool := o == CFG_DEVICE_ID || (decide (0x100000 ≤ o) && decide (o < 0xC00000))

/-- A READ_REG is permitted (R30). -/
def readRegOk (off width : Nat) : Bool :=
  accessOk off width && decide (off < 2 ^ 27) &&
  (match regHolding off with
   | some o => mctpMay o
   | none => false) &&
  (width == 4 || (match regHolding (off + 4) with
    | some o => mctpMay o
    | none => true))

/-- READ_REG (R30). -/
def actReadReg (off width : Nat) : Act := .dyn fun d =>
  if readRegOk off width then answer (mcSuccess :: leBytes width (d.readAt off width)) else answer [mcRefused]

/-! ### Commands -/

def execReadReg (off width : Nat) (s : State) : Host.Outcome State Fault Refusal := mctp (actReadReg off width) s
def execGetRecord (s : State) : Host.Outcome State Fault Refusal := mctp actGetRecord s
def execAckRecord (seq : Nat) (s : State) : Host.Outcome State Fault Refusal := mctp (actAckRecord seq) s
def execGetQuote (nonce : List Byte) (mask : Nat) (s : State) : Host.Outcome State Fault Refusal :=
  mctp (actGetQuote nonce mask) s
def execMctpUnknownCommand (code : Nat) (s : State) : Host.Outcome State Fault Refusal := mctp (actMctpUnknown code) s
def execSignerLoad (s : State) : Host.Outcome State Fault Refusal := cmd signerLoad s
def execSignerLoadDone (bs : List Byte) (s : State) : Host.Outcome State Fault Refusal := cmd (actSignerLoadDone bs) s
def execSignerLock (s : State) : Host.Outcome State Fault Refusal := cmd signerLock s
def execMeasurementExtend (v : Nat) (s : State) : Host.Outcome State Fault Refusal := cmd (extendCtrl v) s
def execLogRelease (seq : Nat) (s : State) : Host.Outcome State Fault Refusal := cmd (logRelease seq) s
def execQuoteRequest (v : Nat) (s : State) : Host.Outcome State Fault Refusal := cmd (quoteCtrl v) s
def execQuoteDone (s : State) : Host.Outcome State Fault Refusal := cmd actQuoteDone s

end Sys2Proof.Machine
end

