-- ==== Sys2Proof/Machine/Monitor.lean ====
section
/-! DEFINITION. Counters, program-counter samples and event rings (20). -/

namespace Sys2Proof.Machine

/-- The stamp of latches, samples and snapshot records (R635). -/
def Dev.obsStamp (d : Dev) : Nat := if d.flag FAB_STATUS_ALIGNED then d.alignedStamp else d.now

/-! ### Counters (R630, R631) -/

/-- A write of MON_CTRL: RUN is stored, CLEAR zeroes the per-unit counters. -/
def monCtrl (v : Nat) : Act :=
  .all [Act.set MON_CTRL_RUN (field v 0 1), Act.when (bit v 1) (.forget (MON_UNIT 0 0) (MON_RING_COUNT 0))]

/-- LATCH: every live counter of the window, and the stamp, are copied (R631). -/
def monLatch (p : Nat) : Act := .dyn fun d =>
  .all [.reg (MON_PART_LATCH_STAMP p) (BitVec.ofNat 64 d.obsStamp),
    Act.each (List.range 5) fun e => Act.each (List.range 4) fun i =>
      .reg (MON_PART_CLASS_L p e i) (d.regRead (MON_PART_CLASS p e i)),
    Act.each (List.range 80) fun r => .reg (MON_PART_REASON_L p r) (d.reg (MON_PART_REASON p r))]

/-- CLEAR: every live counter of the window is 0 (R631). -/
def monClear (p : Nat) : Act :=
  .all [.forget (MON_PART_CLASS p 0 0) (MON_PART_CLASS_L p 0 0), .forget (MON_PART_REASON p 0) (MON_PART_REASON_L p 0)]

/-- A write of MON_PART_CTRL: a write with both bits latches first. -/
def monPartCtrl (p v : Nat) : Act :=
  Act.when (decide (p < 64)) (.all [Act.set (MON_PART_CTRL_RUN p) (field v 0 1), Act.when (bit v 1) (monLatch p),
    Act.when (bit v 2) (monClear p)])

/-! ### Program-counter samples (R632 to R634) -/

/-- The scheduler reason that the state of a quire's threads shows: the lowest that applies (R628). -/
def Quire.waitReason (q : Quire) : Nat :=
  let has := fun k : Nat => q.caravans.any fun c => c.state != 3 && lanes.any fun l => (c.thread l).code == k
  match [1, 2, 3, 4, 5].find? has with
  | some k => 6 + k
  | none => if q.caravans.all fun c => c.state == 3 then 0xC else 0

/-- The live path of a caravan with the lowest program counter. -/
def Caravan.lowestPath (c : Caravan) : Nat × List Nat :=
  match c.live with
  | [] => (0, [])
  | l :: t =>
    let pc := t.foldl (fun m l => min m (c.pc l)) (c.pc l)
    (pc, c.live.filter fun l => c.pc l == pc)

/-- The slot sampled next: the next one in use after the slot sampled last, with wrap. -/
def Quire.nextSample (q : Quire) (last : Nat) : Option Caravan :=
  ((List.range 64).filterMap fun i => q.caravan ((last + i) % 64)).head?

/-- The 32 bytes of a sample. -/
def sampleBytes (d : Dev) (n : Nat) (c : Caravan) (pc reason : Nat) (path : List Nat) : List Byte :=
  leBytes 8 d.obsStamp ++ leBytes 4 (c.uni 6).toNat ++ leBytes 1 (c.index % 16 + 16 * c.state + 128 * bv (!isRecto n)) ++
  leBytes 1 reason ++ leBytes 1 (bv (d.flag FAB_STATUS_ALIGNED)) ++ leBytes 1 0 ++ leBytes 4 (pc / 8) ++
  leBytes 4 (laneMask path) ++
  leBytes 8 (match d.task c.task with
    | some t => dArg t.desc 0
    | none => 0)

/-- A sample goes to the partition's ring, or is lost (R634; log 29). -/
def putSample (p : Nat) (bs : List Byte) : Act := .dyn fun d =>
  let size := 2 ^ d.fld (MON_PC_CFG_LOG2_ENTRIES p)
  let tail := d.fld (MON_PC_TAIL_TAIL p)
  let o := d.fld (MON_PC_BASE_BASE p) * 4096 + tail % size * 32
  if size ≤ (tail + 2 ^ 32 - d.fld (MON_PC_HEAD_HEAD p)) % 2 ^ 32 || !d.inMemory p o 32 then
    Act.add (MON_PC_LOST_COUNT p) 1
  else .seq (lineWrite p none o bs false 0) (Act.add (MON_PC_TAIL_TAIL p) 1)

/-- One quire's sample. `picks` names, by quire, the program counter of the path that R226 issues next and the reason,
which the schedule decides; without one the state's own reason and the lowest live path are taken. -/
def sampleQuire (p : Nat) (picks : List (Nat × Nat × Nat)) (n : Nat) : Act := .dyn fun d =>
  let q := d.quire n
  match q.nextSample (Store.get zeroNat n d.eng.mon.sampled) with
  | none => .skip
  | some c =>
    let pick := picks.find? fun x => x.1 == n && c.path x.2.1 != []
    let path := match pick with
      | some x => (x.2.1, c.path x.2.1)
      | none => c.lowestPath
    let reason := match picks.find? fun x => x.1 == n with
      | some x => x.2.2
      | none => q.waitReason
    .all [.eng fun e => { e with mon := { e.mon with sampled := Store.put zeroNat n (c.slot + 1) e.mon.sampled } },
      putSample p (sampleBytes d n c path.1 reason path.2)]

/-- PC_SAMPLE: a sample period of a partition (R632). -/
def actPcSample (p : Nat) (picks : List (Nat × Nat × Nat)) : Act := .dyn fun d =>
  Act.when (decide (p < 64) && d.flag (MON_PC_CFG_EN p))
    (Act.each (upTo 1536 fun n => d.quirePart n == some p && d.quireActive n) (sampleQuire p picks))

/-! ### Event rings (R645, R646) -/

/-- A write of MON_RING_MARK. -/
def ringMark (v : Nat) : Act := ringEvent (field v 0 11) evMark (field v 16 48)

/-- AFTER_FAULT_EXPIRY: the FAULT cause ends. -/
def actAfterFault : Act := .eng fun e => { e with mon := { e.mon with fault := false } }

/-! ### Commands -/

def execMonClear (s : State) : Host.Outcome State Fault Refusal := cmd (.forget (MON_UNIT 0 0) (MON_RING_COUNT 0)) s
def execMonLatch (p : Nat) (s : State) : Host.Outcome State Fault Refusal := cmd (Act.when (decide (p < 64)) (monLatch p)) s
def execMonPartClear (p : Nat) (s : State) : Host.Outcome State Fault Refusal :=
  cmd (Act.when (decide (p < 64)) (monClear p)) s
def execPcSample (p : Nat) (picks : List (Nat × Nat × Nat)) (s : State) : Host.Outcome State Fault Refusal :=
  cmd (actPcSample p picks) s
def execRingMark (v : Nat) (s : State) : Host.Outcome State Fault Refusal := cmd (ringMark v) s
def execAfterFaultExpiry (s : State) : Host.Outcome State Fault Refusal := cmd actAfterFault s

end Sys2Proof.Machine
end

