-- ==== Sys2Proof/Machine/Hang.lean ====
section
/-! DEFINITION. The records of a hang snapshot and the end of a capture (20). A capture takes the state in which it ends
(R640; log 30). -/

namespace Sys2Proof.Machine

/-- A record before it is stamped: TYPE, partition (0xFF: the device section), ID and payload. -/
structure HangRec where
  ty : Nat
  part : Nat
  id : Nat
  body : List Byte
  deriving DecidableEq, Repr

/-- The 32 bytes of a record (R641). -/
def HangRec.bytes (r : HangRec) (d : Dev) : List Byte :=
  leBytes 1 r.ty ++ leBytes 1 r.part ++ leBytes 1 (bv (d.flag FAB_STATUS_ALIGNED)) ++ leBytes 1 0 ++ leBytes 4 r.id ++
  leBytes 8 d.obsStamp ++ fit 16 r.body

/-- The END record of a section: the records in it, and why it ends. -/
def hangEndRec (part n flags : Nat) : HangRec := ⟨0xF, part, 0, leBytes 4 n ++ leBytes 1 flags⟩

/-! ### The device section (R641, R642) -/

/-- Bytes of the hold area that a port's packets take. -/
def Dev.holdBytes (d : Dev) (j : Nat) : Nat :=
  listSum ((d.eng.fab.hold.filter fun h => h.port == j).map fun h => 32 + h.pkt.data.length)

def creditRecs (d : Dev) : List HangRec :=
  [0, 1].flatMap fun vl => [0, 1, 2, 3].flatMap fun tc => (upTo 32 d.portUp).map fun j =>
    let p := d.port j
    let un := listSum ((p.held.filter fun h => h.pkt.tc == tc && h.pkt.vl == vl).map HeldPkt.flits)
    ⟨0xA, 0xFF, j + 32 * tc + 128 * vl, leBytes 2 (p.credits.getD (creditAt tc vl) 0) ++ leBytes 2 un ++
      leBytes 4 (d.holdBytes j) ++ leBytes 1 (d.fld (FAB_PORT_STATUS_STATE j))⟩

def windowRecs (d : Dev) : List HangRec :=
  (ascending ((d.eng.fab.e2e.filter fun x => !x.pkt.bySlot).map fun x => x.pkt.dest)).map fun r =>
    let mine := d.eng.fab.e2e.filter fun x => !x.pkt.bySlot && x.pkt.dest == r
    ⟨0xB, 0xFF, r, leBytes 4 mine.length ++ leBytes 4 (nextSeq (d.lastSeq false r)) ++
      leBytes 4 ((mine.head?.map fun x => x.pkt.seq).getD 0)⟩

def axlRec (d : Dev) : HangRec :=
  let a := d.eng.axl
  ⟨0xC, 0xFF, 0, leBytes 2 a.reqs.length ++ leBytes 2 a.crReq ++ leBytes 2 a.crSnp ++ leBytes 2 a.crRsp ++
    leBytes 2 a.crDat ++ leBytes 1 (d.fld AXL_STATUS_STATE)⟩

def deviceSection (d : Dev) : List HangRec :=
  let l := creditRecs d ++ windowRecs d ++ [axlRec d]
  l ++ [hangEndRec 0xFF (l.length + 1) 0]

/-! ### Partition sections -/

/-- The active quires of a partition with their QTAG. -/
def Dev.tagged (d : Dev) (p : Nat) : List (Nat × Nat) :=
  let l := upTo 1536 fun n => d.quirePart n == some p && d.quireActive n
  (List.range l.length).map fun i => (i, l.getD i 0)

def queueRecs (d : Dev) (p : Nat) : List HangRec :=
  let b := d.eng.cfg.base
  ((List.range (queueCount b p)).filter fun r => d.ringEnabled (firstQueue b p + r)).map fun r =>
    let q := firstQueue b p + r
    let desc := (d.ring q).desc
    ⟨2, p, r, leBytes 2 (d.fld (QUE_HEAD_HEAD q)) ++ leBytes 2 (d.fld (QUE_TAIL_TAIL q)) ++ leBytes 1 (d.queueKind q) ++
      leBytes 1 (1 + 2 * d.fld (QUE_STATUS_BLOCKED q) + 4 * d.fld (QUE_STATUS_HELD q)) ++
      leBytes 2 (match desc with
        | some b => dWait b
        | none => 0xFFFF) ++
      leBytes 4 (match desc with
        | some b => if dWait b = 0xFFFF then 0 else dWaitValue b
        | none => 0) ++
      leBytes 4 (d.eng.tasks.filter fun t => t.queue == q).length⟩

/-- The paths and descriptors that wait for a tally. -/
def Dev.tallyWaiters (d : Dev) (p t : Nat) : Nat :=
  let n := t - firstTally d.eng.cfg.base p
  let waits := fun x : Thread => match x with
    | .waitTally t' _ _ => t' == t
    | _ => false
  (d.eng.rings.filter fun kv => d.queuePart kv.1 == some p && kv.2.wait == 0 && (match kv.2.desc with
    | some b => dWait b == n
    | none => false)).length +
  listSum (d.eng.quires.flatMap fun kv => kv.2.caravans.map fun c =>
    (((lanes.filter fun l => waits (c.thread l)).map c.pc).eraseDups).length)

def tallyRecs (d : Dev) (p : Nat) : List HangRec :=
  (List.range (tallyCount d.eng.cfg.base p)).filterMap fun r =>
    let t := firstTally d.eng.cfg.base p + r
    let w := d.tallyWaiters p t
    if d.fld (TLY_VALUE_VALUE t) = 0 ∧ !d.flag (TLY_VALUE_FAULTED t) ∧ !d.flag (TLY_EVENT_ARM t) ∧ w = 0 then none
    else some ⟨3, p, r, leBytes 4 (d.fld (TLY_VALUE_VALUE t)) ++
      leBytes 1 (d.fld (TLY_VALUE_FAULTED t) + 2 * d.fld (TLY_EVENT_ARM t)) ++ leBytes 1 0 ++ leBytes 2 w ++
      leBytes 4 (d.fld (TLY_EVENT_TARGET t))⟩

/-- What a thread waits for: its number, and its target or mask. -/
def Thread.waits (t : Thread) (d : Dev) (p : Nat) (q : Quire) (c : Caravan) : Nat × Nat :=
  match t with
  | .waitArrive k target => (k, target)
  | .waitTally t target _ => (t - firstTally d.eng.cfg.base p, target)
  | .waitBarC m => (0, m)
  | .waitBarG b => (b, ((q.stalls.find? fun s => s.isBarG c.task c.gath b).map Stall.mask).getD 0)
  | _ => (0, 0)

def caravanRec (d : Dev) (p tag : Nat) (q : Quire) (c : Caravan) : HangRec :=
  let l := lanes.find? fun l => !c.isActive l
  let w := match l with
    | some l => (c.thread l).waits d p q c
    | none => (0, 0)
  ⟨4, p, tag + 65536 * c.slot, leBytes 4 c.gath ++ leBytes 1 (c.index % 16 + 16 * c.state) ++
    leBytes 1 ((l.map fun l => (c.thread l).code).getD 0) ++ leBytes 2 w.1 ++ leBytes 4 w.2 ++
    leBytes 4 ((l.map fun l => c.pc l / 8).getD 0)⟩

/-- Run over numbers first and quires second, so that IDs ascend. -/
def byNumber (d : Dev) (p n : Nat) (f : Nat → Nat → Nat → Option HangRec) : List HangRec :=
  (List.range n).flatMap fun k => (d.tagged p).filterMap fun x => f k x.1 x.2

def caravanRecs (d : Dev) (p : Nat) : List HangRec :=
  byNumber d p 64 fun slot tag n => ((d.quire n).caravan slot).map fun c => caravanRec d p tag (d.quire n) c

/-- The lowest target for which a thread waits on a counter. -/
def Quire.lowestTarget (q : Quire) (k : Nat) : Option Nat :=
  (q.caravans.flatMap fun c => lanes.filterMap fun l => match c.thread l with
    | .waitArrive k' t => if k' = k then some t else none
    | _ => none).foldl (fun m t => match m with
      | none => some t
      | some x => some (min x t)) none

def arrivalRecs (d : Dev) (p : Nat) : List HangRec :=
  byNumber d p 32 fun k tag n =>
    let q := d.quire n
    let t := q.lowestTarget k
    if q.counter k = 0 ∧ t.isNone then none
    else some ⟨5, p, tag + 65536 * k, leBytes 4 (q.counter k) ++
      leBytes 4 (bv (decide (16 ≤ k) && (q.stream (k - 16)).state != 0)) ++ leBytes 4 (t.getD 0)⟩

def streamRecs (d : Dev) (p : Nat) : List HangRec :=
  byNumber d p 16 fun k tag n =>
    let s := (d.quire n).stream k
    if s.state = 0 then none
    else some ⟨6, p, tag + 65536 * k, leBytes 2 s.next ++ leBytes 2 (min s.released s.rows) ++ leBytes 1 s.state ++
      leBytes 1 (bv s.write) ++ leBytes 2 s.rows⟩

def unitRecs (d : Dev) (p : Nat) : List HangRec :=
  (d.tagged p).filterMap fun x =>
    let q := d.quire x.2
    if q.gaths == [] then none
    else some ⟨7, p, x.1, leBytes 1 q.mtx.queue.length ++ leBytes 1 q.mtxWait.1 ++ leBytes 1 q.vec.queue.length ++
      leBytes 1 q.vecWait ++ leBytes 1 q.copies.length⟩

def reduceRecs (d : Dev) (p : Nat) : List HangRec :=
  if d.holdsRank p then [⟨8, p, 0, leBytes 4 (d.eng.red.sends.filter fun x => x.part == p).length ++
    leBytes 4 (d.fld (RED_STATUS_POOL_WAIT p)) ++ leBytes 4 (d.fld (TRN_STEP_STEP p)) ++
    leBytes 2 (d.fld (TRN_STEP_ATTEMPT p))⟩]
  else []

def proofRecs (d : Dev) (p : Nat) : List HangRec :=
  ([0, 1, 2, 3].filter fun k => d.flag (TRN_PROOF_SLOT_VALID p k)).map fun k =>
    ⟨9, p, k, leBytes 4 (d.fld (TRN_PROOF_SLOT_EPOCH p k)) ++ leBytes 4 (d.fld (TRN_PROOF_VERSION_GRANULES p))⟩

/-- The HEADER of a section that has n records in full. -/
def headerRec (d : Dev) (p n : Nat) : HangRec :=
  let b := d.eng.cfg.base
  let blocked := ((List.range (queueCount b p)).filter fun r => d.flag (QUE_STATUS_BLOCKED (firstQueue b p + r))).length
  let waiting := listSum ((d.tagged p).map fun x => ((d.quire x.2).caravans.filter fun c =>
    lanes.any fun l => !c.isActive l && !c.exited l).length)
  ⟨1, p, 0, leBytes 4 (bv (d.debugVisible p)) ++ leBytes 4 n ++ leBytes 2 blocked ++ leBytes 2 waiting ++
    leBytes 4 (d.regRead (PART_STATUS p)).toNat⟩

/-- The records of a partition between HEADER and END. -/
def partRecs (d : Dev) (p : Nat) : List HangRec :=
  queueRecs d p ++ tallyRecs d p ++ caravanRecs d p ++ arrivalRecs d p ++ streamRecs d p ++ unitRecs d p ++
  reduceRecs d p ++ proofRecs d p

/-- A partition's section, in full or only HEADER and END (R637). -/
def partSection (d : Dev) (p : Nat) (full : Bool) : List HangRec :=
  let l := partRecs d p
  headerRec d p (l.length + 2) :: ((if full then l else []) ++ [hangEndRec p (if full then l.length + 2 else 2) 0])

/-! ### Captures (R642, R643) -/

/-- What a source's snapshot holds. -/
def hangRecords (d : Dev) (src : Nat) : List HangRec :=
  if src = 0 then
    deviceSection d ++ (formedList d.eng.cfg.base).flatMap fun p => partSection d p (d.debugVisible p)
  else partSection d (src - 1) true

/-- The records that fit: in a buffer that is too small the last one is an END with TRUNCATED set. -/
def hangCut (l : List HangRec) (room : Nat) : List HangRec × Bool :=
  if l.length ≤ room then (l, false)
  else
    let l' := l.take (room - 1)
    let part := (l[room - 1]?.map HangRec.part).getD 0xFF
    (l' ++ [hangEndRec part ((l'.filter fun r => r.part == part).length + 1) 1], true)

/-- Write a snapshot to host memory; no window is asked (R150). -/
def hangToHost (addr : Nat) (bs : List Byte) : Act :=
  Act.each (pieces (bs.length / 64 + 2) addr bs) fun x =>
    .seq (dropHostLine (x.1 / 64)) (axlReq { Msg.mk0 (if x.2.length = 64 then opWrLine else opWrPart) with
      addr := x.1, len := x.2.length, data := x.2 } (.write 0) 0)

/-- HANG_CAPTURE_DONE: the snapshot being captured is written and ends. -/
def actHangCaptureDone : Act := .dyn fun d =>
  match d.eng.mon.hang with
  | [] => .skip
  | src :: _ =>
    let len := if src = 0 then d.fld MON_HANG_LEN_BYTES else d.fld (MON_PHANG_LEN_BYTES (src - 1))
    let cut := hangCut (hangRecords d src) (len / 32)
    let bs := (cut.1.map fun r => r.bytes d).flatten
    .all [
      if src = 0 then .all [hangToHost (d.fld MON_HANG_ADDR_ADDR) bs, Act.set MON_HANG_STATUS_RECORDS cut.1.length,
        Act.setB MON_HANG_STATUS_TRUNCATED cut.2]
      else .all [memWrite (src - 1) none (d.fld (MON_PHANG_BASE_BASE (src - 1)) * 64) bs false 0,
        Act.setB (MON_PHANG_STATUS_TRUNCATED (src - 1)) cut.2],
      hangEnd src 0]

/-! ### Commands -/

def execHangSnapshot (s : State) : Host.Outcome State Fault Refusal := cmd (hangRequest 0 false) s
def execPartitionHangSnapshot (p : Nat) (s : State) : Host.Outcome State Fault Refusal :=
  cmd (Act.when (decide (p < 64)) (hangRequest (p + 1) false)) s
def execHangCaptureDone (s : State) : Host.Outcome State Fault Refusal := cmd actHangCaptureDone s

end Sys2Proof.Machine
end

