-- ==== Sys2Proof/Machine/Regs.lean ====
section
/-! DEFINITION. Writing a register (00, 01, 02 and the register tables of every chapter): access codes, the seal, the
values that a register turns down, and the registers whose write acts. -/

namespace Sys2Proof.Machine

/-- The indices of a register instance, outermost first. -/
def indices : List (Nat × Nat) → Nat → List Nat
  | [], _ => []
  | (s, _) :: t, r => r / s :: indices t (r % s)

/-- A width in bits as a mask. -/
def lowMask (n : Nat) : Nat := 2 ^ n - 1

/-- Some bits of a word replaced. -/
def merge (old : DWord) (mask v : Nat) : DWord :=
  let m := BitVec.ofNat 64 mask
  (old &&& ~~~m) ||| (BitVec.ofNat 64 v &&& m)

/-! ### Values that a register turns down -/

/-- Fields that keep their value when a write would give them one they do not take: register, lowest bit, width, and the
values taken. -/
def fieldRules (d : Dev) : List (Nat × Nat × Nat × (Nat → Bool)) := [
  (PWR_UV_WARN, 0, 16, fun v => decide (40000 ≤ v) && decide (v ≤ 46000)),
  (PWR_THERM_WARN, 0, 8, fun v => decide (80 ≤ v) && decide (v ≤ 105)),
  (AXL_REQ_TIMEOUT, 0, 32, fun v => v != 0),
  (CFG_HOST_EVENT_QUEUE, 0, 18, fun v => d.queueKind v == 5),
  (THR_WDOG 0, 0, 32, fun v => v == 0 || decide (65536 ≤ v)),
  (CFG_VERSION_CTRL, 0, 5, fun v => decide (v ≤ 16)),
  (DUN_SCRUB 0, 0, 8, fun v => decide (1 ≤ v) && decide (v ≤ 168)),
  (RED_ACK_TIMEOUT, 0, 32, fun v => decide (0x1400 ≤ v)),
  (FAB_SYNC, 0, 32, fun v => decide (0x10000 ≤ v)),
  (FAB_E2E, 0, 32, fun v => decide (d.e2eFloor ≤ v)),
  (FAB_E2E, 32, 8, fun v => v != 0),
  (FAB_CFG, 0, 4, fun v => v != 0),
  (MON_PC_CFG 0, 1, 5, fun v => decide (12 ≤ v) && decide (v ≤ 24)),
  (MON_PC_CFG 0, 8, 5, fun v => decide (8 ≤ v) && decide (v ≤ 24))]

/-- A written value with the fields that are turned down put back. -/
def turnDown (d : Dev) (base : Nat) (old new : DWord) : DWord :=
  ((fieldRules d).filter fun r => r.1 == base).foldl (fun w r =>
    if r.2.2.2 (field w.toNat r.2.1 r.2.2.1) then w
    else putField w r.2.1 r.2.2.1 (field old.toNat r.2.1 r.2.2.1)) new

/-! ### Writes that nothing takes -/

/-- Whether a write to a register has an effect where it stands (DESIGN CHOICE, log 98: a write that a page ignores is not
counted under R65 either, though it names an RWL field of a sealed device): pages of a partition under reset take none (R182), nor
do unassigned queues and tallies (R173), dark quires (R250), and the training, reduction and mirror registers while
their partition is not at a quiesce point (R439, R524, R607); W1C bits and TRN_TALLY are free of the last. -/
def Dev.takesWrite (d : Dev) (base off : Nat) (i : Nat) : Bool :=
  let trn := base == TRN_LS 0 || base == TRN_STEP 0 || base == TRN_SHARD_BASE 0 || base == TRN_SHARD_SLOTS 0 ||
    base == TRN_RECORD 0 || base == TRN_GATHER 0 || base == RED_LEAF_BASE 0 || base == RED_ROOT_BASE 0 ||
    base == RED_GATE 0
  if 0x1500000 ≤ off ∧ off < 0x1900000 then decide (i < 64) && d.pageOpen i
  else if 0x1900000 ≤ off ∧ off < 0x1A00000 then
    match d.tallyPart i with
    | some p => d.pageOpen p
    | none => false
  else if 0x4000000 ≤ off then
    match d.queuePart i with
    | some p => d.pageOpen p
    | none => false
  else if 0x2000000 ≤ off ∧ off < 0x3800000 then !d.quireDark i
  else if trn then d.quiesced i
  else if RES_MIRROR_LOCAL 0 ≤ off ∧ off < RES_MIRROR_LOCAL 4 then
    match d.rankPart with
    | some p => d.quiesced p
    | none => true
  else true

/-! ### Registers whose write acts -/

/-- What a write does beyond storing: none for a register that only stores. The value holds the written bits, and for a
part written alone the stored RW bits of the rest. DESIGN CHOICE (log 99): the WO bits of a half that a 4-byte write does not
name count as written 0. -/
def writeAction (base : Nat) (ix : List Nat) (lanes v : Nat) : Option Act :=
  let i := ix.getD 0 0
  if base == CFG_IMAGE_CTRL then some (imageCtrl v)
  else if base == CFG_UCODE_CTRL then some (ucodeCtrl v)
  else if base == PWR_RESET_CTRL then some (actWarmReset v)
  else if base == PWR_PART_RESET then some (actPartitionReset v)
  else if base == PWR_PORT_RESET then some (actPortReset v)
  else if base == PART_CTRL 0 then some (partCtrl i v)
  else if base == QUE_BASE 0 then some (queBase i v)
  else if base == QUE_CFG 0 then some (queCfg i v)
  else if base == QUE_HEAD 0 then some (headWrite i (field v 0 16))
  else if base == QUE_TAIL 0 then some (doorbell i (field v 0 16))
  else if base == TLY_VALUE 0 then
    some (if bit v 32 then tallyClear i else Act.when (lanes % 2 ^ 32 != 0) (tallySetHost i (field v 0 32)))
  else if base == TLY_ADD 0 then some (Act.when (lanes % 2 ^ 32 != 0) (tallyAddHost i (field v 0 32)))
  else if base == TRN_STEP 0 then some (Act.when (lanes % 2 ^ 32 != 0) (trnStep i v))
  else if base == TRN_LS 0 then some (trnLs i v)
  else if base == RES_FILL_CTRL then some (fillCtrl v)
  else if base == RES_SNAP_CFG then some (snapCfg v)
  else if base == RES_SNAP_CTRL then some (snapCtrl v)
  else if base == SEC_SIGNER_CTRL then some (signerCtrl v)
  else if base == SEC_EXTEND_CTRL then some (extendCtrl v)
  else if base == SEC_LOG_HEAD then some (logRelease (field v 0 32))
  else if base == SEC_QUOTE_CTRL then some (quoteCtrl v)
  else if base == MON_CTRL then some (monCtrl v)
  else if base == MON_HANG_CTRL then some (Act.when (bit v 0) (hangRequest 0 false))
  else if base == MON_RING_MARK then some (ringMark v)
  else if base == MON_PART_CTRL 0 then some (monPartCtrl i v)
  else if base == MON_PHANG_CTRL 0 then
    some (.all [Act.set (MON_PHANG_CTRL_ON_STALL i) (field v 1 1), Act.when (bit v 0) (hangRequest (i + 1) false)])
  else none

/-! ### Storing -/

/-- Write some bits of a register: RW bits are stored, RWL bits unless the configuration is sealed, each 1 in a W1C bit
clears it unless hardware set it in the same tcycle (R203), and RO bits and reserved bits stay (R4, R5, R7, R8, R65). An entry of a REG_INIT record (`init`) stores RW and
RWL bits whatever the seal, and touches nothing else (R47, R66). -/
def storeReg (init : Bool) (r : RegDef) (off lanes v : Nat) : Act := .dyn fun d =>
  let sealed := d.flag CFG_SEAL_STATUS_SEALED && !init
  let old := d.reg off
  let new := turnDown d r.base old (merge old (lanes &&& (r.rw ||| (if sealed then 0 else r.rwl))) v)
  let new := if init then new else new &&& ~~~(BitVec.ofNat 64 (lanes &&& r.w1c &&& v) &&& ~~~BitVec.ofNat 64 (d.raisedBits off))
  .all [Act.when (sealed && lanes &&& r.rwl != 0) (Act.count CFG_SEAL_STATUS_IGNORED_WRITES 1), mayRecord (.reg off new),
    Act.when (r.base == PWR_GATE_CTRL) (.dyn fun d => Act.when (!d.flag PWR_GATE_CTRL_AUTO_GATE)
      (updPwr fun p => { p with gatedArrays := [], gatedVecs := [] }))]

/-- A software write to some bytes of a register. -/
def writeReg (r : RegDef) (off lanes v : Nat) : Act := .dyn fun d =>
  let ix := indices r.dims (off - r.base)
  let stored := (d.reg off).toNat &&& (lowMask 64 - lanes) &&& r.rw
  if lanes = 0 || !d.takesWrite r.base off (ix.getD 0 0) then .skip
  else match writeAction r.base ix lanes (stored + (v &&& lanes)) with
    | some a => a
    | none => storeReg false r off lanes v

/-- Four bytes written: to a register, to the upper half of a 64-bit one, or to nothing (R9, R28). -/
def writeWord (off v : Nat) : Act :=
  match regAt off with
  | some r => writeReg r off (lowMask 32) v
  | none =>
    match regAt (off - 4) with
    | some r => Act.when (r.wide && decide (4 ≤ off)) (writeReg r (off - 4) (lowMask 32 * 2 ^ 32) (v * 2 ^ 32))
    | none => .skip

/-- A software write of `width` bytes at an offset of the register space (R4, R25). -/
def softWrite (off width v : Nat) : Act :=
  if !accessOk off width then Act.count CFG_BAD_ACCESS_COUNT 1
  else if width = 4 then writeWord off (v % 2 ^ 32)
  else match regAt off with
    | some r => if r.wide then writeReg r off (lowMask 64) (v % 2 ^ 64)
        else .seq (writeWord off (v % 2 ^ 32)) (writeWord (off + 4) (v / 2 ^ 32 % 2 ^ 32))
    | none => .seq (writeWord off (v % 2 ^ 32)) (writeWord (off + 4) (v / 2 ^ 32 % 2 ^ 32))

/-- An entry of a REG_INIT record (R47). -/
def initWrite (off v : Nat) : Act :=
  match regAt off with
  | some r => storeReg true r off (lowMask 64) v
  | none => .skip

/-! ### Commands -/

def execRegisterWrite (off width v : Nat) (s : State) : Host.Outcome State Fault Refusal := cmd (softWrite off width v) s

end Sys2Proof.Machine
end

