-- ==== Sys2Proof/Machine/AxlHost.lean ====
section
/-! DEFINITION. The Axoft Link (05): requests of the host to registers and to device memory, snoops both ways, the
host's answers, flits, timeouts, the loss of the link and its training. -/

namespace Sys2Proof.Machine

def updAxl (f : Axl → Axl) : Act := .eng fun e => { e with axl := f e.axl }

/-- A poisoned message received is counted. -/
def poisonRx (b : Bool) : Act := Act.when b (Act.count AXL_CONTAIN_COUNT_POISON_RX 1)

/-! ### The home of a device line (R138 to R142) -/

/-- Every folio's copy of a committed device line goes. -/
def dropFolios (key : Nat) : Act := .eng fun e =>
  { e with dune := { e.dune with folios := e.dune.folios.filter fun x => !(x.key == key && x.view.isNone) } }

/-- Put a request of the host behind a line. -/
def holdAt (line after : Nat) (m : Msg) (ecc : Ecc) : Act := updAxl fun a =>
  { a with home := a.home ++
    [{ line := line, after := after, view := none, ecc := ecc, msg := some m, write := [], poison := m.poison,
       origin := .ordinary, task := 0 }] }

/-- The line's entry of the host-holder directory goes. -/
def dropHolder (key : Nat) : Act := updAxl fun a => { a with dir := a.dir.filter fun x => x.1 != key }

/-- Grant the host a line. -/
def grantHost (key : Nat) (h : Holder) : Act := updAxl fun a =>
  { a with dir := if a.dir.any fun x => x.1 == key then a.dir.map fun x => if x.1 == key then (key, h) else x
      else a.dir ++ [(key, h)] }

/-- The line that must give up its entry before a line of the same dune base is granted one (R140). -/
def Dev.victim (d : Dev) (key : Nat) : Option Nat :=
  let mine := d.eng.axl.dir.filter fun x => d.baseOf x.1 == d.baseOf key
  if (d.hostHolds key).isSome || mine.length < 1048576 then none else mine.head?.map fun x => x.1

/-- DATA with bytes of device memory, poisoned where the line is (R162). -/
def answerData (m : Msg) (p o n : Nat) : Act := .dyn fun d =>
  .all [countRead p o n, answerHost { Msg.mk0 opData with
    tag := m.tag, addr := m.addr, len := n, data := d.viewBytes p none o n, poison := d.poisoned p none o n }]

/-- Why a request of the host to device memory is answered ERROR, and whether as one that comes too early: it comes before
PHASE 6, reaches no presented memory, or meets PREPARE, APPLY or a partition reset (R108, R146, R148; log 31). -/
def Dev.memRefuses (d : Dev) (p o n : Nat) : Option Bool :=
  let st := d.fld CFG_IMAGE_STATUS_STATE
  if d.fld PWR_BOOT_STATUS_PHASE < 6 then some true
  else if st == 5 || st == 6 || (bit (d.fld PWR_RESET_BUSY_PARTS) p && !d.eng.pwr.heldResets.contains p) ||
      !d.inMemory p o n then some false
  else none

/-- The ERROR answer to a refused request. -/
def refuseMem (m : Msg) (early : Bool) : Act :=
  .seq (Act.when early (Act.count CFG_DEFAULT_MEM_EARLY_REQ 1)) (answerCmp m true)

/-- A request of the host to device memory, which came before the demand access numbered `after`, is carried out at the home
of its line. What breaks the form of its opcode is answered ERROR as well (R133, R134). -/
def serveMem (m : Msg) (ecc : Ecc) (after : Nat) : Act := .dyn fun d =>
  match d.memAt m.addr with
  | none => answerCmp m true
  | some (p, o) =>
    let key := lineKey p o
    let lo := o / 64 * 64
    let part := m.op == opRdUc || m.op == opWrPart
    let badForm := (part && (m.len == 0 || decide (64 < o % 64 + m.len))) ||
      (m.op == opAtomic && (o % 8 != 0 || m.arg == 0 || decide (3 < m.arg)))
    match d.memRefuses p o (if part then m.len else 1) with
    | some early => refuseMem m early
    | none =>
    if badForm then answerCmp m true
    else if d.lineBusyBefore none key after then holdAt key after m ecc
    else if m.op = opRdShared ∨ m.op = opRdOwn then
      match d.victim key with
      | some v => .all [snoop v false, holdAt v after m ecc]
      | none => withEccThen ecc p o (.all [Act.when (m.op == opRdOwn) (dropFolios key),
          grantHost key (if m.op = opRdOwn then .exclusive else .shared), answerData m p lo 64])
    else if m.op = opRdUc then withEccThen ecc p o (answerData m p o m.len)
    else if m.op = opWrLine then
      .all [dropFolios key, commitLine p lo (fit 64 m.data) m.poison .ordinary 0, answerCmp m false]
    else if m.op = opWrPart then
      .all [dropFolios key, withEcc ecc p o 0 (commitLine p o (fit m.len m.data) m.poison .ordinary 0), answerCmp m false]
    else if m.op = opAtomic then
      withEccThen ecc p o (.dyn fun d =>
        let old := leNat (d.viewBytes p none o 8)
        let v := atomNew (match m.arg with | 1 => 0 | 2 => 6 | _ => 7) false 64 old (leAt m.data 0 8) (leAt m.data 8 8)
        .all [dropFolios key, answerData m p o 8,
          Act.when (!d.poisoned p none o 8) (commitLine p o (leBytes 8 v) false .ordinary 0)])
    else .skip
where
  /-- A read goes on after an uncorrectable error, and finds poison. -/
  withEccThen (e : Ecc) (p o : Nat) (k : Act) : Act := .dyn fun d =>
    .seq (if d.chanFenced (d.chanOf p o) then .skip else match e with
      | .clean => .skip
      | .corrected => corrected p o
      | .uncorrectable => ueDune p o 0) k

/-- Carry out, in order, what waits at the homes and need wait no longer. -/
def settleHomes : Act := .dyn fun d =>
  .all [updAxl fun a => { a with home := [] },
    Act.each d.eng.axl.home fun h => .dyn fun d =>
      if d.lineBusyBefore h.view h.line h.after then updAxl fun a => { a with home := a.home ++ [h] }
      else match h.msg with
        | some m => serveMem m h.ecc h.after
        | none => lineWriteAfter h.after h.origin (h.line / 2 ^ 34) h.view
            (h.line % 2 ^ 34 * 64 + (h.write.headD (0, 0)).1) (h.write.map fun x => x.2) h.poison h.task]

/-! ### Requests of the host (R134, R147 to R149) -/

/-- A request to the register space: RD_UC or WR_PART of 4 or 8 bytes; any other is answered ERROR and counted (R25,
R149). -/
def serveReg (m : Msg) (off : Nat) : Act := .dyn fun d =>
  if !((m.op == opRdUc || m.op == opWrPart) && (m.len == 4 || m.len == 8)) then
    .seq (Act.count CFG_BAD_ACCESS_COUNT 1) (answerCmp m true)
  else if m.op = opRdUc then
    .all [Act.when (!accessOk off m.len) (Act.count CFG_BAD_ACCESS_COUNT 1),
      answerHost { Msg.mk0 opData with
        tag := m.tag, addr := m.addr, len := m.len
        data := leBytes m.len (if accessOk off m.len then d.readAt off m.len else 0) }]
  else if m.poison then .seq (Act.when (!accessOk off m.len) (Act.count CFG_BAD_ACCESS_COUNT 1)) (answerCmp m true)
  else .seq (softWrite off m.len (leAt m.data 0 m.len)) (answerCmp m false)

/-- The snoop of a line is over: its TAG is free, and the next snoop that waits for one goes out. -/
def recallOver (key : Nat) : Act :=
  .seq (updAxl fun a => { a with recalls := a.recalls.filter fun r => r.line != key }) nextSnoop

/-- An eviction of the host ends its entry; the data of a line that an entry in E or M stands for go home, other data are
discarded. A recall whose answer came while the eviction was in flight is settled by it (R145, R146); `k` then goes on. -/
def evict (m : Msg) (k : Act) : Act := .dyn fun d =>
  match d.memAt m.addr with
  | none => answerCmp m true
  | some (p, o) =>
    let key := lineKey p o
    let dirty := m.op == opEvictDirty && d.hostHolds key == some .exclusive
    .all [match d.memRefuses p o 1 with
        | some early => refuseMem m early
        | none => .all [dropHolder key,
            Act.when dirty (commitLine p (o / 64 * 64) (fit 64 m.data) m.poison .ordinary 0), answerCmp m false],
      Act.when ((d.recallOf key).any Recall.answered) (.all [recallOver key, dropHolder key, k])]

/-- Carry out a request of the host: to a register, to device memory, or to neither (R147). -/
def serveHost (m : Msg) (ecc : Ecc) : Act := .dyn fun d =>
  let rb := d.fld AXL_REG_BAR_BASE
  if rb ≤ m.addr ∧ m.addr < rb + 2 ^ 27 then serveReg m (m.addr - rb)
  else serveMem m ecc d.eng.nextTask

/-- A write of the host waits at a home: what the host sends later comes after it (R152). -/
def Dev.hostWriteWaits (d : Dev) : Bool :=
  d.eng.axl.home.any fun h => h.msg.any fun m => m.op == opWrLine || m.op == opWrPart || m.op == opAtomic

/-- Carry out, in order, the host requests that waited behind a write of the host, at most n of them. -/
def drainInq : Nat → Act
  | 0 => .skip
  | n + 1 => .dyn fun d =>
    match d.eng.axl.inq with
    | [] => .skip
    | x :: t => Act.when (!d.hostWriteWaits)
        (.all [updAxl fun a => { a with inq := t }, serveHost x.1 x.2, drainInq n])

/-- Carry out what waited for a line: at the homes, behind a host write, and in the mirror (R138, R141, R152). -/
def settle : Act := .all [settleHomes, .dyn fun d => drainInq d.eng.axl.inq.length, mirrorRetry]

/-- A message of a class that the device sinks has come: its credit is to be returned (R135, R136). -/
def sunk (cls : Nat) : Act := updAxl fun a => (a.took cls).freed cls

/-- A request of the host comes after every write of the host that has not taken effect (R152). DESIGN CHOICE (log 111): an
eviction does not wait, since a recall may wait for it (R145). -/
def hostRequest (m : Msg) (ecc : Ecc) : Act := .dyn fun d =>
  let rb := d.fld AXL_REG_BAR_BASE
  let evicts := (m.op == opEvictDirty || m.op == opEvictClean) && !(decide (rb ≤ m.addr) && decide (m.addr < rb + 2 ^ 27))
  Act.when d.axlUp (.all [poisonRx m.poison, updAxl fun a => a.took 0,
    if evicts then evict m settle
    else if d.hostWriteWaits || d.eng.axl.inq != [] then updAxl fun a => { a with inq := a.inq ++ [(m, ecc)] }
    else serveHost m ecc])

def hostMsg (op tag addr len arg : Nat) (poison : Bool) (data : List Byte) : Msg :=
  { op := op, tag := tag % 16384, part := 0, addr := addr % 2 ^ 64, len := len % 128, arg := arg % 256, poison := poison, data := data }

/-- SNP_INV from the host: the line leaves the folio caches (R144, R145). -/
def actSnpInv (tag addr : Nat) : Act := .dyn fun d =>
  Act.when d.axlUp (.all [sunk 1, dropHostLine (addr / 64),
    axlSend { Msg.mk0 opAckI with tag := tag % 16384, addr := addr % 2 ^ 64 }])

/-! ### Answers to the device's snoops (R141, R145) -/

/-- The line, with its partition and offset, of the snoop that an answer names by TAG and address (R133). -/
def Dev.answered (d : Dev) (tag addr : Nat) : Option (Nat × Nat × Recall) :=
  match d.memAt addr with
  | none => none
  | some (p, o) => match d.recallOf (lineKey p o) with
    | some r => if r.tag = some tag then some (p, o, r) else none
    | none => none

/-- DATA_M: the modified line comes home, unless its entry was given up before a zeroing (R146). -/
def actDataM (tag addr : Nat) (data : List Byte) (poison : Bool) : Act := .dyn fun d =>
  Act.when d.axlUp (.all [poisonRx poison, sunk 3,
    match d.answered tag addr with
    | some (p, o, _) => Act.when (d.hostHolds (lineKey p o) == some .exclusive)
        (commitLine p (o / 64 * 64) (fit 64 data) poison .ordinary 0)
    | none => .skip])

/-- ACK_I: the line is held by no host cache any more, and what waits for it goes on; where the host answered with an
eviction of the line in flight, the line is settled by that eviction (R145). -/
def actAckI (tag addr : Nat) (evicting : Bool) : Act := .dyn fun d =>
  Act.when d.axlUp (.seq (sunk 2) (match d.answered tag addr with
    | some (_, _, r) =>
      if evicting && (d.hostHolds r.line).isSome then updAxl fun a => a.updRecall r.line fun x => { x with answered := true }
      else .all [recallOver r.line, dropHolder r.line, settle]
    | none => .skip))

/-- ACK_S: the host keeps the line shared; a SNP_INV that is owed goes out, otherwise what waits for the line goes on. -/
def actAckS (tag addr : Nat) : Act := .dyn fun d =>
  Act.when d.axlUp (.seq (sunk 2) (match d.answered tag addr with
    | some (_, _, r) =>
      if r.inv then .skip
      else .all [updAxl fun a => { a with dir := a.dir.map fun x => if x.1 == r.line then (r.line, .shared) else x },
        recallOver r.line, if r.due then snoop r.line false else settle]
    | none => .skip))

/-! ### Answers to the device's requests (R134, R137, R152) -/

/-- An EVT of a ring (R159). -/
def sendEvt (q : Nat) : Act := .dyn fun d =>
  axlSend { Msg.mk0 opEvt with part := (d.queuePart q).getD 0, arg := d.fld (QUE_CFG_VECTOR q) }

/-- The record of a ring has been accepted: its EVT goes out, at most one in each moderation period. -/
def recordDone (q : Nat) : Act := .dyn fun d =>
  let a := d.eng.axl
  if d.fld AXL_EVT_MOD_TCYCLES = 0 then sendEvt q
  else if a.evtBusy.contains q then Act.when (!a.evtDue.contains q) (updAxl fun a => { a with evtDue := a.evtDue ++ [q] })
  else .seq (updAxl fun a => { a with evtBusy := a.evtBusy ++ [q] }) (sendEvt q)

/-- EVT_MODERATION_EXPIRY. -/
def actEvtExpiry (q : Nat) : Act := .dyn fun d =>
  let a := d.eng.axl
  if !a.evtBusy.contains q then .skip
  else if a.evtDue.contains q then .seq (updAxl fun a => { a with evtDue := a.evtDue.erase q }) (sendEvt q)
  else updAxl fun a => { a with evtBusy := a.evtBusy.erase q }

/-- A task of the device that has not failed. -/
def Dev.going (d : Dev) (num : Nat) : Bool :=
  match d.task (d.ownerOf num) with
  | some t => t.status == stOk
  | none => false

/-- A folio takes a host line for a partition: a full filter first gives up its oldest line, a full cache its oldest (R104,
R143, R170). -/
def admitHostLine (line part folio : Nat) (poison : Bool) (data : List Byte) : Act := .seq (makeRoom folio) <| .dyn fun d =>
  let l := d.eng.axl.filter
  if l.any fun h => h.line == line && h.part == part then updAxl fun a => { a with
    filter := a.filter.map fun h => if h.line == line && h.part == part then
      { h with folios := h.folios ||| 2 ^ folio, poison := poison, data := data } else h }
  else
    let add : Act := updAxl fun a => { a with filter := a.filter ++ [⟨line, part, 2 ^ folio, poison, data⟩] }
    match l with
    | h :: _ =>
      if l.length < 4194304 then add
      else .all [dropHostLine h.line,
        axlReq { Msg.mk0 opEvictClean with part := h.part, addr := h.line * 64 } .evict 0, add]
    | [] => add

/-- A read or an atomic of the device has its data, or completes as poisoned data (R163 to R165). -/
def readDone (r : OutReq) (data : List Byte) (poison : Bool) : Act := .dyn fun d =>
  match r.why with
  | .line id =>
    let line := r.addr / 64
    match d.eng.memWaits.find? fun w => w.id == id with
    | some w => .all [
        .eng fun e => { e with memWaits := e.memWaits.map fun x => if x.id == id then { x with
            poison := x.poison || poison
            got := x.got ++ (List.range 64).map fun i => (line * 64 + i, data.getD i 0)
            want := x.want.erase ⟨true, line⟩ } else x },
        Act.when d.axlUp (admitHostLine line (((d.task (d.ownerOf id)).map Task.part).getD 0) (folioOf w.quire) poison
          (fit 64 data))]
    | none => .skip
  | .atomic id lane => .eng fun e => { e with
      memWaits := e.memWaits.map fun x => if x.id == id then { x with
          poison := x.poison || poison
          old := x.old ++ [(lane, leAt data 0 8)]
          want := x.want.erase ⟨true, lane⟩ } else x }
  | .copyRead p toHost dst n =>
    Act.when (d.going r.task)
      (if toHost then hostWrite p dst (fit n data) poison r.task
       else memWrite p (d.taskView r.task) dst (fit n data) poison r.task)
  | .leafRead n task gath off len =>
    match (d.quire n).gathering task gath with
    | some g => Act.when (d.going r.task)
        (if poison then endTask r.task stFault fkPoison
         else .seq (leafWrite n g off (fit len data))
           (Act.when (!(d.quire n).copies.any fun c => c.id == r.task) (Act.add (THR_LEAF_COUNT_CROSS_IN n) (linesOf off len).length)))
    | none => .skip
  | .rowRead n c row off =>
    let s := (d.quire n).stream c
    if !(s.flight.any fun x => x.1 == row && x.2 == r.task) || s.state != 1 then .skip
    else if poison then updStream n c fun s => { s with bad := row :: s.bad }
    else match (d.quire n).gathering s.task s.gath with
      | some g => leafWrite n g off (fit 64 data)
      | none => .skip
  | .fetch => Act.when poison fetchFails
  | .svcRead dst n => Act.when (d.going r.task) (.seq (updSvc r.task fun s => s.put dst (fit n data) poison) (svcGo r.task))
  | .record _ | .write _ | .evict => .skip

def Dev.request (d : Dev) (tag : Nat) : Option OutReq := d.eng.axl.reqs.find? fun r => r.tag == tag

/-- An answer to a TAG that no request holds is discarded and counted (R164). -/
def lateAnswer : Act := Act.count AXL_CONTAIN_COUNT_TIMEOUTS 1

/-- The last answer to a request has come: its TAG is free and what waited for it is issued (R137, R152). -/
def answered (r : OutReq) (k : Act) : Act :=
  .all [updAxl fun a => { a with reqs := a.reqs.filter fun x => x.tag != r.tag }, k, nextSnoop, updAxl Axl.issueAll]

/-- CMP: a write or an eviction is done, a record has been accepted. In place of DATA it refuses a read, which then
completes as poisoned data (log 32). -/
def actCmp (tag status : Nat) : Act := .dyn fun d =>
  Act.when d.axlUp (.seq (sunk 2) (match d.request tag with
    | none => lateAnswer
    | some r => match r.why with
      | .record q => answered r (recordDone q)
      | .write _ | .evict => answered r .skip
      | _ => Act.when (status != 0) (answered r (readDone r [] true))))

/-- DATA. The bytes of a fetched file come whole with IMAGE_FETCHED or UCODE_FETCHED; poisoned data end the fetch. -/
def actData (tag : Nat) (data : List Byte) (poison : Bool) : Act := .dyn fun d =>
  Act.when d.axlUp (.all [poisonRx poison, sunk 3, match d.request tag with
    | none => lateAnswer
    | some r => Act.when (r.why.reads && (poison || r.why != .fetch)) (answered r (readDone r data poison))])

/-- The request reads a row that no AWAIT waits for: its failure ends no task (R317). -/
def Dev.prefetches (d : Dev) (r : OutReq) : Bool :=
  match r.why with
  | .rowRead n c row _ => !((d.quire n).stream c).demand.contains row
  | _ => false

/-- AXL_REQ_TIMEOUT: the request completes inside the device, its task faults, and its TAG is retired (R164); a prefetch of a
stream is dropped instead (R317). -/
def actAxlReqTimeout (tag : Nat) : Act := .dyn fun d =>
  match d.request tag with
  | none => .skip
  | some r => Act.when d.axlUp
      (.all [Act.count AXL_CONTAIN_COUNT_TIMEOUTS 1,
        Act.when (!d.prefetches r) (endTask r.task stFault fkHostTimeout),
        updAxl fun a => { a with reqs := a.reqs.filter fun x => x.tag != tag, retired := a.retired ++ [tag] },
        readDone r [] true, nextSnoop, updAxl Axl.issueAll])

/-! ### Flits (R129 to R131) -/

/-- Half-range order of 12-bit sequence numbers. -/
def seqLe12 (a b : Nat) : Bool := decide ((b + 4096 - a % 4096) % 4096 < 2048)

def Axl.acked (a : Axl) (ack : Nat) : Axl := { a with ack := ack, held := a.held.filter fun h => !seqLe12 h.seq ack }

/-- Returned credits, up to what the companion processor advertised. -/
def Dev.credited (d : Dev) (req snp rsp dat : Nat) (a : Axl) : Axl :=
  { a with
    crReq := min (d.fld AXL_PEER_CREDITS_REQ) (a.crReq + req)
    crSnp := min (d.fld AXL_PEER_CREDITS_SNP) (a.crSnp + snp)
    crRsp := min (d.fld AXL_PEER_CREDITS_RSP) (a.crRsp + rsp)
    crDat := min (d.fld AXL_PEER_CREDITS_DAT) (a.crDat + dat) }

/-- The receiver asks for the flit with the expected SEQ, by one NAK until that flit comes (R130). -/
def sendNak : Act := updAxl fun a => if a.nak.isSome then a else Axl.sendFree { a with nak := some a.seqRx } 2 a.seqRx

/-- The ACK and the credits that a flit returns are taken. -/
def flitReturns (h : FlitHead) : Act := .dyn fun d =>
  updAxl fun a => Axl.pump (d.credited h.cr.req h.cr.snp h.cr.rsp h.cr.dat (a.acked h.ack))

/-- AXL_FLIT: the 256 bytes of a flit as they leave the FEC decoder, and the wrong symbols of each codeword that carried it.
A codeword with more than 15 fails; a flit whose CRC does not match, or whose SEQ is not the expected one, is discarded; a
numbered flit returns its ACK and credits when it is accepted (R127 to R130). -/
def actAxlFlit (bytes : List Byte) (errs : List Nat) : Act := .dyn fun d =>
  let a := d.eng.axl
  let h := flitHead bytes
  Act.when d.axlUp (.seq (Act.count AXL_LINK_COUNT_FEC_CORRECTED (fecCorrected errs))
    (if !(fecDecodes errs && flitGood bytes) then sendNak
     else if !(h.ty == 1 || h.ty == 3) then flitReturns h
     else if h.seq = a.seqRx then
       .seq (updAxl fun a => { a with seqRx := (a.seqRx + 1) % 4096, nak := none }) (flitReturns h)
     else if seqLe12 (h.seq + 1) a.seqRx then updAxl fun a => { a with dupFlits := a.dupFlits + 1 }
     else sendNak))

/-! ### Loss of the link (R132, R165, R166) -/

/-- The enabled rings in host memory. -/
def Dev.hostRings (d : Dev) : List Nat :=
  (d.regs.filterMap fun kv =>
    if QUE_CFG 0 ≤ kv.1 ∧ (kv.1 - QUE_CFG 0) % 0x80 = 0 then some ((kv.1 - QUE_CFG 0) / 0x80) else none).filter fun q =>
    decide (q < 262144) && d.ringEnabled q && !d.flag (QUE_BASE_LOC q)

/-- A lost line that the host held in E or M is poisoned. -/
def poisonHeld (x : Nat × Holder) : Act :=
  Act.when (x.2 == .exclusive) (setPoison (x.1 / 2 ^ 34) (x.1 % 2 ^ 34 * 64) true)

/-- The link as it is after a loss or a training: only what is counted, and while the epoch lasts the retired TAGs and the
writes that wait at the homes, outlive it. -/
def Axl.anew (a : Axl) : Axl := { Axl.init with poisonTx := a.poisonTx, dupFlits := a.dupFlits }

/-- The loss of the link: the six steps of R165 (the sixth is AXL_RETRAIN). -/
def linkLoss : Act := .dyn fun d =>
  let a := d.eng.axl
  let waiting := a.reqWait.map fun w => (⟨0, w.why, w.task, w.msg.addr⟩ : OutReq)
  Act.when d.axlUp (.all [
    Act.set AXL_STATUS_WIDTH 0, Act.set AXL_LANES_USED 0, axlState 3, Act.count AXL_LINK_COUNT_LOSSES 1,
    report fkAxlLinkLoss 0xFF 0 [],
    updAxl fun x => { x.anew with
        retired := x.retired
        home := x.home.filter fun h => h.msg.isNone },
    Act.each a.dir poisonHeld,
    Act.each ((a.reqs ++ waiting).filter fun r => r.why.reads) fun r => readDone r [] true,
    settle, Act.when d.eng.sec.loading (signerTake []),
    .dyn fun d => Act.each d.hostRings fun q => .seq (ringDisable q) (dropHeld q),
    hangLinkLost])

/-- AXL_LINK_LOSS: no flit of any type has been accepted for 10 microseconds (R132; log 9). -/
def actAxlLinkLoss : Act := linkLoss

/-- The sends of a flit without acknowledgement at which the link is lost (R132). -/
def sendLimit : Nat := 8

/-- AXL_NAK: every held flit from the named SEQ on is sent again (R131); a flit sent 8 times without acknowledgement
loses the link (R132). -/
def actAxlNak (seq : Nat) : Act := .dyn fun d =>
  Act.when d.axlUp (.all [updAxl fun a =>
      let a := a.acked ((seq + 4095) % 4096)
      { a with held := a.held.map fun h => { h with sends := h.sends + 1 } },
    Act.count AXL_LINK_COUNT_REPLAYS 1, ringEvent ringAxl evReplay (seq % 4096),
    .dyn fun d => Act.when (d.eng.axl.held.any fun h => decide (sendLimit ≤ h.sends)) linkLoss])

/-- A tcycle of the link: credits that are owed go out in an IDLE flit (R126, R129), and what waits for a line goes on. -/
def axlTick : Act := .dyn fun d =>
  .all [Act.when (d.axlUp && d.eng.axl.owed != Credits.zero) (updAxl fun a => a.sendFree 0 0),
    Act.when (d.eng.axl.home != [] || d.eng.axl.inq != []) settle]

/-! ### Training (R125, R135, R147, R168) -/

/-- AXL_RETRAIN: an attempt starts (R100, R165). -/
def actAxlRetrain : Act := .dyn fun d =>
  Act.when (!d.axlUp && decide (4 ≤ d.fld PWR_BOOT_STATUS_PHASE)) (axlState 1)

/-- The width and the lanes taken: the widest aligned group of good lanes, the lowest among equals. -/
def laneGroup (good : Nat) : Nat × Nat :=
  let ok := fun lo n : Nat => decide (field good lo n = lowMask n)
  if ok 0 16 then (3, 0xFFFF)
  else match [0, 8].find? fun lo => ok lo 8 with
    | some lo => (2, 0xFF * 2 ^ lo)
    | none => match [0, 4, 8, 12].find? fun lo => ok lo 4 with
      | some lo => (1, 0xF * 2 ^ lo)
      | none => (0, 0)

/-- AXL_TRAINING_DONE: whether every phase passed, the lanes that passed equalisation, whether lanes are reversed, the
credits that the companion processor advertises, and the two ranges it sends. -/
def actAxlTrainingDone (ok : Bool) (good : Nat) (rev : Bool) (req snp rsp dat regBase memBase : Nat) : Act := .dyn fun d =>
  let g := laneGroup good
  let pass := ok && g.1 != 0 && [req, snp, rsp, dat].all fun c => decide (64 ≤ c)
  let first := d.fld PWR_BOOT_STATUS_PHASE == 4
  Act.when (d.fld AXL_STATUS_STATE == 1) (.all [
    Act.set AXL_LANES_GOOD good, Act.setB AXL_STATUS_REVERSED rev,
    if pass then .all [
        Act.set AXL_LANES_USED g.2, Act.set AXL_STATUS_WIDTH g.1,
        Act.set AXL_PEER_CREDITS_REQ req, Act.set AXL_PEER_CREDITS_SNP snp, Act.set AXL_PEER_CREDITS_RSP rsp,
        Act.set AXL_PEER_CREDITS_DAT dat, Act.set AXL_REG_BAR_BASE regBase, Act.set AXL_MEM_BAR_BASE memBase,
        Act.add AXL_STATUS_EPOCH 1,
        updAxl fun a => { a.anew with rx := Credits.own, crReq := req, crSnp := snp, crRsp := rsp, crDat := dat },
        axlState 2]
      else .all [Act.set AXL_LANES_USED 0, Act.set AXL_STATUS_WIDTH 0,
        axlState (if d.fld AXL_LINK_COUNT_LOSSES = 0 then 0 else 3),
        Act.when first (Act.set PWR_BOOT_STATUS_AXL_RETRIED 1)],
    Act.when first (.seq (endPhase 4) (setPhase 5)), readyIf])

/-! ### Commands -/

def execRdShared (tag addr : Nat) (ecc : Ecc) (s : State) : Host.Outcome State Fault Refusal :=
  cmd (hostRequest (hostMsg opRdShared tag addr 0 0 false []) ecc) s
def execRdOwn (tag addr : Nat) (ecc : Ecc) (s : State) : Host.Outcome State Fault Refusal :=
  cmd (hostRequest (hostMsg opRdOwn tag addr 0 0 false []) ecc) s
def execRdUc (tag addr len : Nat) (ecc : Ecc) (s : State) : Host.Outcome State Fault Refusal :=
  cmd (hostRequest (hostMsg opRdUc tag addr len 0 false []) ecc) s
def execWrLine (tag addr : Nat) (data : List Byte) (poison : Bool) (s : State) : Host.Outcome State Fault Refusal :=
  cmd (hostRequest (hostMsg opWrLine tag addr 0 0 poison data) .clean) s
def execWrPart (tag addr len : Nat) (data : List Byte) (poison : Bool) (ecc : Ecc) (s : State) :
    Host.Outcome State Fault Refusal :=
  cmd (hostRequest (hostMsg opWrPart tag addr len 0 poison data) ecc) s
def execEvictDirty (tag addr : Nat) (data : List Byte) (poison : Bool) (s : State) : Host.Outcome State Fault Refusal :=
  cmd (hostRequest (hostMsg opEvictDirty tag addr 0 0 poison data) .clean) s
def execEvictClean (tag addr : Nat) (s : State) : Host.Outcome State Fault Refusal := 
  cmd (hostRequest (hostMsg opEvictClean tag addr 0 0 false []) .clean) s
def execAtomic (tag addr arg operand compare : Nat) (ecc : Ecc) (s : State) : Host.Outcome State Fault Refusal :=
  cmd (hostRequest (hostMsg opAtomic tag addr 0 arg false (leBytes 8 operand ++ leBytes 8 compare)) ecc) s
def execSnpInv (tag addr : Nat) (s : State) : Host.Outcome State Fault Refusal := cmd (actSnpInv tag addr) s
def execCmp (tag status : Nat) (s : State) : Host.Outcome State Fault Refusal := cmd (actCmp tag status) s
def execAckI (a : InvAnswer) (s : State) : Host.Outcome State Fault Refusal := cmd (actAckI a.tag a.addr a.evicting) s
def execAckS (a : SnoopAnswer) (s : State) : Host.Outcome State Fault Refusal := cmd (actAckS a.tag a.addr) s
def execData (tag : Nat) (data : List Byte) (poison : Bool) (s : State) : Host.Outcome State Fault Refusal :=
  cmd (actData tag data poison) s
def execDataM (a : SnoopAnswer) (data : List Byte) (poison : Bool) (s : State) : Host.Outcome State Fault Refusal :=
  cmd (actDataM a.tag a.addr data poison) s
def execAxlReqTimeout (tag : Nat) (s : State) : Host.Outcome State Fault Refusal := cmd (actAxlReqTimeout tag) s
def execEvtModerationExpiry (q : Nat) (s : State) : Host.Outcome State Fault Refusal := cmd (actEvtExpiry q) s
def execAxlFlit (body : List Byte) (errs : List Nat) (seq ack ty req snp rsp dat : Nat) (s : State) :
    Host.Outcome State Fault Refusal :=
  cmd (actAxlFlit (flitOf seq ack ty req snp rsp dat body) errs) s
def execAxlNak (seq : Nat) (s : State) : Host.Outcome State Fault Refusal := cmd (actAxlNak seq) s
def execAxlLinkLoss (s : State) : Host.Outcome State Fault Refusal := cmd actAxlLinkLoss s
def execAxlRetrain (s : State) : Host.Outcome State Fault Refusal := cmd actAxlRetrain s
def execAxlTrainingDone (ok : Bool) (good : Nat) (rev : Bool) (req snp rsp dat regBase memBase : Nat) (s : State) :
    Host.Outcome State Fault Refusal :=
  cmd (actAxlTrainingDone ok good rev req snp rsp dat regBase memBase) s

end Sys2Proof.Machine
end

