-- ==== Sys2Proof/Machine/Arrival.lean ====
section
/-! DEFINITION. The arrival of the data of a demand access, and its end at the home of its lines (R138, R163, R230). -/

namespace Sys2Proof.Machine

/-- A write that its home carries out now: into committed memory or into an epoch's version. -/
def homeWrite (p : Nat) (view : Option Nat) (o : Nat) (bs : List Byte) (task : Nat) : Act :=
  match view with
  | some e => versionLine p e o bs false true task
  | none => commitLine p o bs false .ordinary task

/-- Device atomics of a wait, at their home, in ascending lane order (R221, R472). -/
def atomHome (w : MemWait) (p op : Nat) (sgn : Bool) (view : Option Nat) :
    List (Nat × Nat) → List (Nat × Nat) → (List (Nat × Nat) → Act) → Act
  | [], old, k => k old
  | la :: t, old, k => .dyn fun d =>
    let v := leNat (d.viewBytes p view la.2 w.width)
    let a := Dev.atomVal w.vals la.1
    .all [invalidateFolios view (lineKey p la.2) (folioOf w.quire),
      homeWrite p view la.2 (leBytes w.width (atomNew op sgn (8 * w.width) v a.1 a.2)) w.id,
      atomHome w p op sgn view t (old ++ [(la.1, v)]) k]

/-- What a wait of host lines or answers delivers to a lane. -/
def MemWait.hostValue (w : MemWait) (l : Nat) : Nat :=
  match w.atom with
  | some _ => (w.old.find? fun o => o.1 == l).map (fun o => o.2) |>.getD 0
  | none => match w.lanes.find? fun la => la.1 == l with
    | some la => extend32 w.width w.sext (gotNat w.got la.2 w.width)
    | none => 0

/-- A demand access is given up and its task ends by a fault. -/
def waitFails (id kind : Nat) : Act := .all [dropWait id, endTask id stFault kind]

/-- A demand access on device lines is carried out at their home: poison ends the task; otherwise a load delivers and an
atomic is performed (R163, R230). `ecc` is what the home finds in the first line. -/
def waitAtHome (t : Task) (w : MemWait) (ecc : Ecc) : Act := .dyn fun d =>
  let view := d.taskView w.id
  let reads := Act.each (linesAt w.lanes) fun l => countRead t.part (l * 64) 64
  withEcc ecc t.part (w.lanes.headD (0, 0)).2 w.id <| .dyn fun d =>
    if w.lanes.any fun la => d.poisoned t.part view la.2 w.width then .seq reads (waitFails w.id fkPoison)
    else .seq reads <| match w.atom with
      | some (op, sgn) => atomHome w t.part op sgn view w.lanes [] fun old =>
          waitDone w fun l => (old.find? fun x => x.1 == l).map (fun x => x.2) |>.getD 0
      | none =>
        .seq (Act.each w.keys fun k => grantFolio view k (folioOf w.quire))
          (waitDone w fun l => match w.lanes.find? fun la => la.1 == l with
            | some la => extend32 w.width w.sext (leNat (d.viewBytes t.part view la.2 w.width))
            | none => 0)

/-- MEM_DATA_ARRIVAL: the last datum of an access arrives. Nothing while host lines or answers are missing or an earlier
transaction on a line has not finished; lines that the host holds are asked back first (R138, R141, R230). -/
def actMemDataArrival (id : Nat) (ecc : Ecc) : Act := .dyn fun d =>
  match d.eng.memWaits.find? fun w => w.id == id with
  | none => settle
  | some w =>
    match d.task (d.ownerOf id) with
    | none => .seq (dropWait id) settle
    | some t =>
      let view := d.taskView id
      if w.host then
        if w.want.any fun x => x.host then .skip
        else if w.poison then waitFails id fkPoison
        else waitDone w w.hostValue
      else if w.keys.any fun k => d.lineBusyBefore view k id then .skip
      else if d.toAsk t.part view w != [] then ask (d.toAsk t.part view w)
      else .seq (waitAtHome t w ecc) settle

def execMemDataArrival (id : Nat) (ecc : Ecc) (s : State) : Host.Outcome State Fault Refusal :=
  cmd (actMemDataArrival id ecc) s

end Sys2Proof.Machine
end

