-- ==== Sys2Proof/Machine/DuneOps.lean ====
section
/-! DEFINITION. What the dune bases do on their own (15): scrubbing, refresh, and the faster refresh of a hot dune. -/

namespace Sys2Proof.Machine

/-- SCRUB_READ: the line with this index in channel c is read and checked; `pass` says that it was the last line of the
pass (R476 to R478). A fenced channel is not scrubbed. -/
def actScrubRead (c line : Nat) (ecc : Ecc) (pass : Bool) : Act := .dyn fun d =>
  if 512 ≤ c || d.chanFenced c then .skip
  else .all [match ecc with
      | .clean => .skip
      | .corrected => Act.add (DUN_ECC_COUNT_CORRECTED (c / 16) (c % 16)) 1
      | .uncorrectable => ueLine c line ((d.chanPart c).getD 0xFF) 0,
    Act.when pass (Act.add (DUN_SCRUB_PASSES (c / 16)) 1)]

/-- REFRESH: the bank is held for a time and nothing else changes (R480; log 9). -/
def actRefresh (_ _ : Nat) : Act := .skip

/-- DUNE_HOT: the sensor of dune base b reads above 85 degrees; tj counts sixteenths of a degree (R479). -/
def actDuneHot (b tj : Nat) : Act :=
  Act.when (decide (b < 32) && decide (85 * 16 < signed 16 tj)) (.all [Act.set (DUN_STATUS_HOT b) 1, tempSeen (8 + b) tj])

/-- DUNE_COOL: the sensor of dune base b reads below 83 degrees (R96, R479). -/
def actDuneCool (b tj : Nat) : Act :=
  Act.when (decide (b < 32) && decide (signed 16 tj < 83 * 16)) (.all [Act.set (DUN_STATUS_HOT b) 0, tempSeen (8 + b) tj])

/-! ### Commands -/

def execScrubRead (c line : Nat) (ecc : Ecc) (pass : Bool) (s : State) : Host.Outcome State Fault Refusal :=
  cmd (actScrubRead c line ecc pass) s
def execRefresh (c bank : Nat) (s : State) : Host.Outcome State Fault Refusal := cmd (actRefresh c bank) s
def execDuneHot (b tj : Nat) (s : State) : Host.Outcome State Fault Refusal := cmd (actDuneHot b tj) s
def execDuneCool (b tj : Nat) (s : State) : Host.Outcome State Fault Refusal := cmd (actDuneCool b tj) s

end Sys2Proof.Machine
end

