-- ==== Sys2Proof/Machine/Commands.lean ====
section
/-! DEFINITION. The meanings of the commands of images, power, boot, rings, tallies, dispatch, epochs and training
registers, over the acts of those chapters. -/

namespace Sys2Proof.Machine

/-! ### Images and microcode (02, 04) -/

def execImageLoad (s : State) : Host.Outcome State Fault Refusal := cmd imageLoad s
def execImageFetched (bs : List Byte) (s : State) : Host.Outcome State Fault Refusal := cmd (actImageFetched bs) s
def execImageVerified (s : State) : Host.Outcome State Fault Refusal := cmd actImageVerified s
def execImageValidated (s : State) : Host.Outcome State Fault Refusal := cmd actImageValidated s
def execPrepareDone (s : State) : Host.Outcome State Fault Refusal := cmd actPrepareDone s
def execApplyDone (s : State) : Host.Outcome State Fault Refusal := cmd (actApplyDone initWrite) s
def execOverlayQuiesced (s : State) : Host.Outcome State Fault Refusal := cmd (overlayQuiesced initWrite) s
def execOverlayTimeout (s : State) : Host.Outcome State Fault Refusal := cmd actOverlayTimeout s
def execSeal (s : State) : Host.Outcome State Fault Refusal := cmd sealCtrl s
def execRevert (s : State) : Host.Outcome State Fault Refusal := cmd revertCtrl s
def execCancel (s : State) : Host.Outcome State Fault Refusal := cmd cancelCtrl s
def execUcodeLoad (s : State) : Host.Outcome State Fault Refusal := cmd ucodeLoad s
def execUcodeFetched (bs : List Byte) (s : State) : Host.Outcome State Fault Refusal := cmd (actUcodeFetched bs) s
def execUcodeSwitch (s : State) : Host.Outcome State Fault Refusal := cmd actUcodeSwitch s

/-! ### The supply and the resets (03): in any power state -/

def execRegulatorStart (s : State) : Host.Outcome State Fault Refusal := raw actRegulatorStart s
def execPwrGood (s : State) : Host.Outcome State Fault Refusal := raw actPwrGood s
def execResetRelease (mgr : Bool) (feed slot : Nat) (s : State) : Host.Outcome State Fault Refusal :=
  raw (actResetRelease mgr feed slot) s
def execColdReset (s : State) : Host.Outcome State Fault Refusal := raw actColdReset s
def execVinUvWarn (s : State) : Host.Outcome State Fault Refusal := raw actVinUvWarn s
def execThermalTrip (sensor tj : Nat) (s : State) : Host.Outcome State Fault Refusal := raw (actThermalTrip sensor tj) s
def execStopRegulatorsOff (s : State) : Host.Outcome State Fault Refusal := raw actStopRegulatorsOff s
def execVinCollapse (s : State) : Host.Outcome State Fault Refusal := raw actVinCollapse s
def execVinOvWarn (s : State) : Host.Outcome State Fault Refusal := raw actVinOvWarn s
def execVinOvTrip (s : State) : Host.Outcome State Fault Refusal := raw actVinOvTrip s
def execAuxRailFault (s : State) : Host.Outcome State Fault Refusal := raw actAuxRailFault s
def execThermWarn (sensor tj : Nat) (s : State) : Host.Outcome State Fault Refusal := raw (actThermWarn sensor tj) s
def execPllLossOfLock (s : State) : Host.Outcome State Fault Refusal := raw actPllLoss s

/-- A warm reset also ends a failed boot (R99). -/
def execWarmReset (v : Nat) (s : State) : Host.Outcome State Fault Refusal :=
  raw (.dyn fun d => Act.when (d.eng.pwr.good && d.eng.pwr.resetN) (actWarmReset v)) s

def execPwrVinUpdate (mv amp watt : Nat) (s : State) : Host.Outcome State Fault Refusal :=
  cmd (actPwrVinUpdate mv amp watt) s
def execAutoGateArray (n a : Nat) (s : State) : Host.Outcome State Fault Refusal := cmd (actAutoGateArray n a) s
def execAutoGateVector (n : Nat) (s : State) : Host.Outcome State Fault Refusal := cmd (actAutoGateVector n) s
def execPartitionReset (mask : Nat) (s : State) : Host.Outcome State Fault Refusal := cmd (actPartitionReset mask) s
def execPartitionResetDone (p : Nat) (s : State) : Host.Outcome State Fault Refusal := cmd (actPartitionResetDone p) s

/-! ### Boot (04) -/

def execBist (fences : List Nat) (narrow ways : List (Nat × Nat)) (engines : List Nat) (fatal : Nat) (s : State) : Host.Outcome State Fault Refusal :=
  cmd (actBist fences narrow ways engines fatal) s
def execDuneTrain (chans bases : List Nat) (s : State) : Host.Outcome State Fault Refusal :=
  cmd (actDuneTrain chans bases) s
def execPuf (ok : Bool) (s : State) : Host.Outcome State Fault Refusal := cmd (actPuf ok) s
def execDefaultPhaseDone (s : State) : Host.Outcome State Fault Refusal := cmd actDefaultPhaseDone s
def execFabricPhaseEnd (s : State) : Host.Outcome State Fault Refusal := cmd actFabricPhaseEnd s

/-! ### Rings, tallies and tasks (06) -/

/-- RING_ENABLE: ENABLE is set on a ring that is disabled (R180). -/
def ringOn (q : Nat) : Act := onQueue q fun p => .dyn fun d => Act.when (!d.ringEnabled q) (ringEnable p q)

/-- RING_DISABLE: ENABLE is cleared on a ring that is enabled. -/
def ringOff (q : Nat) : Act := onQueue q fun _ => .dyn fun d => Act.when (d.ringEnabled q) (ringDisable q)

/-- A write of a partition's training register, at a quiesce point only (R439). -/
def trnWrite (p : Nat) (a : Act) : Act := .dyn fun d => Act.when (decide (p < 64) && d.quiesced p) a

def execDoorbell (q tail : Nat) (s : State) : Host.Outcome State Fault Refusal := cmd (doorbell q tail) s
def execHeadWrite (q head : Nat) (s : State) : Host.Outcome State Fault Refusal := cmd (headWrite q head) s
def execRingEnable (q : Nat) (s : State) : Host.Outcome State Fault Refusal := cmd (ringOn q) s
def execRingDisable (q : Nat) (s : State) : Host.Outcome State Fault Refusal := cmd (ringOff q) s
def execRingAccessFault (r : RingRead) (s : State) : Host.Outcome State Fault Refusal :=
  cmd (ringAccessFault r.q r.timeout) s
def execPartitionStop (p v : Nat) (s : State) : Host.Outcome State Fault Refusal := cmd (partCtrl p v) s
def execTallySet (t v : Nat) (s : State) : Host.Outcome State Fault Refusal := cmd (tallySetHost t v) s
def execTallyAddHost (t v : Nat) (s : State) : Host.Outcome State Fault Refusal := cmd (tallyAddHost t v) s
def execTallyClearFaulted (t : Nat) (s : State) : Host.Outcome State Fault Refusal := cmd (tallyClear t) s
def execKernel (q : Nat) (bs : List Byte) (s : State) : Host.Outcome State Fault Refusal := cmd (actKernel q bs) s
def execMarker (q : Nat) (bs : List Byte) (s : State) : Host.Outcome State Fault Refusal := cmd (actMarker q bs) s
def execCopyTask (q : Nat) (bs : List Byte) (s : State) : Host.Outcome State Fault Refusal := cmd (actCopyTask q bs) s
def execTaskComplete (id : Nat) (s : State) : Host.Outcome State Fault Refusal := cmd (actTaskComplete id) s

/-! ### Epochs and training registers (13, 14) -/

def execEpochInstallDone (p e : Nat) (s : State) : Host.Outcome State Fault Refusal := cmd (actEpochInstallDone p e) s
def execTrnStepWrite (p v : Nat) (s : State) : Host.Outcome State Fault Refusal := cmd (trnWrite p (trnStep p v)) s
def execTrnLsWrite (p v : Nat) (s : State) : Host.Outcome State Fault Refusal := cmd (trnWrite p (trnLs p v)) s

end Sys2Proof.Machine
end

