-- ==== Sys2Proof/Machine/Dispatch.lean ====
section
/-! DEFINITION. What each command does: one arm for each constructor of Instr. -/

namespace Sys2Proof.Machine

def exec (i : Instr) (s : State) : Host.Outcome State Fault Refusal :=
  match i with
  | .registerWrite off width v => Sys2Proof.Machine.execRegisterWrite off width v s
  | .readReg off width => Sys2Proof.Machine.execReadReg off width s
  | .getRecord => Sys2Proof.Machine.execGetRecord s
  | .ackRecord seq => Sys2Proof.Machine.execAckRecord seq s
  | .getQuote nonce mask => Sys2Proof.Machine.execGetQuote nonce mask s
  | .mctpUnknownCommand code => Sys2Proof.Machine.execMctpUnknownCommand code s
  | .imageLoad => Sys2Proof.Machine.execImageLoad s
  | .imageFetched bs => Sys2Proof.Machine.execImageFetched bs s
  | .imageVerified => Sys2Proof.Machine.execImageVerified s
  | .imageValidated => Sys2Proof.Machine.execImageValidated s
  | .prepareDone => Sys2Proof.Machine.execPrepareDone s
  | .applyDone => Sys2Proof.Machine.execApplyDone s
  | .overlayQuiesced => Sys2Proof.Machine.execOverlayQuiesced s
  | .overlayTimeout => Sys2Proof.Machine.execOverlayTimeout s
  | .seal => Sys2Proof.Machine.execSeal s
  | .revert => Sys2Proof.Machine.execRevert s
  | .cancel => Sys2Proof.Machine.execCancel s
  | .ucodeLoad => Sys2Proof.Machine.execUcodeLoad s
  | .ucodeSwitch => Sys2Proof.Machine.execUcodeSwitch s
  | .regulatorStart => Sys2Proof.Machine.execRegulatorStart s
  | .pwrGood => Sys2Proof.Machine.execPwrGood s
  | .resetRelease mgr feed slot => Sys2Proof.Machine.execResetRelease mgr feed slot s
  | .coldReset => Sys2Proof.Machine.execColdReset s
  | .vinUvWarn => Sys2Proof.Machine.execVinUvWarn s
  | .thermalTrip sensor tj => Sys2Proof.Machine.execThermalTrip sensor tj s
  | .stopRegulatorsOff => Sys2Proof.Machine.execStopRegulatorsOff s
  | .vinCollapse => Sys2Proof.Machine.execVinCollapse s
  | .vinOvWarn => Sys2Proof.Machine.execVinOvWarn s
  | .vinOvTrip => Sys2Proof.Machine.execVinOvTrip s
  | .auxRailFault => Sys2Proof.Machine.execAuxRailFault s
  | .thermWarn sensor tj => Sys2Proof.Machine.execThermWarn sensor tj s
  | .pllLossOfLock => Sys2Proof.Machine.execPllLossOfLock s
  | .autoGateArray n a => Sys2Proof.Machine.execAutoGateArray n a s
  | .autoGateVector n => Sys2Proof.Machine.execAutoGateVector n s
  | .warmReset v => Sys2Proof.Machine.execWarmReset v s
  | .partitionReset mask => Sys2Proof.Machine.execPartitionReset mask s
  | .partitionResetDone p => Sys2Proof.Machine.execPartitionResetDone p s
  | .portReset mask => Sys2Proof.Machine.execPortReset mask s
  | .bist fences narrow ways engines fatal => Sys2Proof.Machine.execBist fences narrow ways engines fatal s
  | .duneTrain chans bases => Sys2Proof.Machine.execDuneTrain chans bases s
  | .puf ok => Sys2Proof.Machine.execPuf ok s
  | .axlTrainingDone ok good rev req snp rsp dat regBase memBase => Sys2Proof.Machine.execAxlTrainingDone ok good rev req snp rsp dat regBase memBase s
  | .axlRetrain => Sys2Proof.Machine.execAxlRetrain s
  | .defaultPhaseDone => Sys2Proof.Machine.execDefaultPhaseDone s
  | .fabricPhaseEnd => Sys2Proof.Machine.execFabricPhaseEnd s
  | .axlFlit body errs seq ack ty req snp rsp dat => Sys2Proof.Machine.execAxlFlit body errs seq ack ty req snp rsp dat s
  | .axlNak seq => Sys2Proof.Machine.execAxlNak seq s
  | .axlLinkLoss => Sys2Proof.Machine.execAxlLinkLoss s
  | .rdShared tag addr ecc => Sys2Proof.Machine.execRdShared tag addr ecc s
  | .rdOwn tag addr ecc => Sys2Proof.Machine.execRdOwn tag addr ecc s
  | .rdUc tag addr len ecc => Sys2Proof.Machine.execRdUc tag addr len ecc s
  | .wrLine tag addr data poison => Sys2Proof.Machine.execWrLine tag addr data poison s
  | .wrPart tag addr len data poison ecc => Sys2Proof.Machine.execWrPart tag addr len data poison ecc s
  | .evictDirty tag addr data poison => Sys2Proof.Machine.execEvictDirty tag addr data poison s
  | .evictClean tag addr => Sys2Proof.Machine.execEvictClean tag addr s
  | .atomic tag addr arg operand compare ecc => Sys2Proof.Machine.execAtomic tag addr arg operand compare ecc s
  | .snpInv tag addr => Sys2Proof.Machine.execSnpInv tag addr s
  | .cmp tag status => Sys2Proof.Machine.execCmp tag status s
  | .ackI a => Sys2Proof.Machine.execAckI a s
  | .ackS a => Sys2Proof.Machine.execAckS a s
  | .data tag data poison => Sys2Proof.Machine.execData tag data poison s
  | .dataM a data poison => Sys2Proof.Machine.execDataM a data poison s
  | .axlReqTimeout tag => Sys2Proof.Machine.execAxlReqTimeout tag s
  | .evtModerationExpiry q => Sys2Proof.Machine.execEvtModerationExpiry q s
  | .doorbell q tail => Sys2Proof.Machine.execDoorbell q tail s
  | .headWrite q head => Sys2Proof.Machine.execHeadWrite q head s
  | .ringEnable q => Sys2Proof.Machine.execRingEnable q s
  | .ringDisable q => Sys2Proof.Machine.execRingDisable q s
  | .ringAccessFault r => Sys2Proof.Machine.execRingAccessFault r s
  | .partitionStop p v => Sys2Proof.Machine.execPartitionStop p v s
  | .tallySet t v => Sys2Proof.Machine.execTallySet t v s
  | .tallyAddHost t v => Sys2Proof.Machine.execTallyAddHost t v s
  | .tallyClearFaulted t => Sys2Proof.Machine.execTallyClearFaulted t s
  | .kernel q bs => Sys2Proof.Machine.execKernel q bs s
  | .marker q bs => Sys2Proof.Machine.execMarker q bs s
  | .copyTask q bs => Sys2Proof.Machine.execCopyTask q bs s
  | .gatheringPlace p role => Sys2Proof.Machine.execGatheringPlace p role s
  | .taskComplete id => Sys2Proof.Machine.execTaskComplete id s
  | .fill q bs => Sys2Proof.Machine.execFill q bs s
  | .copy q bs => Sys2Proof.Machine.execCopy q bs s
  | .memtest q bs corr ue => Sys2Proof.Machine.execMemtest q bs corr ue s
  | .matmul q bs => Sys2Proof.Machine.execMatmul q bs s
  | .allreduce q bs => Sys2Proof.Machine.execAllreduce q bs s
  | .broadcast q bs => Sys2Proof.Machine.execBroadcast q bs s
  | .allgather q bs => Sys2Proof.Machine.execAllgather q bs s
  | .reduceScatter q bs => Sys2Proof.Machine.execReduceScatter q bs s
  | .serviceGroupTimeout id => Sys2Proof.Machine.execServiceGroupTimeout id s
  | .sendWrite q bs => Sys2Proof.Machine.execSendWrite q bs s
  | .sendRead q bs => Sys2Proof.Machine.execSendRead q bs s
  | .sendAccumulate q bs => Sys2Proof.Machine.execSendAccumulate q bs s
  | .sendTallyAdd q bs => Sys2Proof.Machine.execSendTallyAdd q bs s
  | .sendDoorbell q bs => Sys2Proof.Machine.execSendDoorbell q bs s
  | .mov sel w => Sys2Proof.Machine.execMov sel w s
  | .movh sel w => Sys2Proof.Machine.execMovh sel w s
  | .iadd sel w => Sys2Proof.Machine.execIadd sel w s
  | .isub sel w => Sys2Proof.Machine.execIsub sel w s
  | .imul sel w => Sys2Proof.Machine.execImul sel w s
  | .imulh sel w => Sys2Proof.Machine.execImulh sel w s
  | .imad sel w => Sys2Proof.Machine.execImad sel w s
  | .and sel w => Sys2Proof.Machine.execAnd sel w s
  | .or sel w => Sys2Proof.Machine.execOr sel w s
  | .xor sel w => Sys2Proof.Machine.execXor sel w s
  | .shl sel w => Sys2Proof.Machine.execShl sel w s
  | .shr sel w => Sys2Proof.Machine.execShr sel w s
  | .min sel w => Sys2Proof.Machine.execMin sel w s
  | .max sel w => Sys2Proof.Machine.execMax sel w s
  | .setp sel w => Sys2Proof.Machine.execSetp sel w s
  | .plop sel w => Sys2Proof.Machine.execPlop sel w s
  | .sel sel w => Sys2Proof.Machine.execSel sel w s
  | .popc sel w => Sys2Proof.Machine.execPopc sel w s
  | .clz sel w => Sys2Proof.Machine.execClz sel w s
  | .shfl sel w => Sys2Proof.Machine.execShfl sel w s
  | .vote sel w => Sys2Proof.Machine.execVote sel w s
  | .fadd sel w => Sys2Proof.Machine.execFadd sel w s
  | .fmul sel w => Sys2Proof.Machine.execFmul sel w s
  | .ffma sel w => Sys2Proof.Machine.execFfma sel w s
  | .fmin sel w => Sys2Proof.Machine.execFmin sel w s
  | .fmax sel w => Sys2Proof.Machine.execFmax sel w s
  | .frcp sel w => Sys2Proof.Machine.execFrcp sel w s
  | .frsq sel w => Sys2Proof.Machine.execFrsq sel w s
  | .fexp2 sel w => Sys2Proof.Machine.execFexp2 sel w s
  | .flog2 sel w => Sys2Proof.Machine.execFlog2 sel w s
  | .cvt sel w => Sys2Proof.Machine.execCvt sel w s
  | .bra sel w => Sys2Proof.Machine.execBra sel w s
  | .braR sel w => Sys2Proof.Machine.execBraR sel w s
  | .exit sel w => Sys2Proof.Machine.execExit sel w s
  | .nop sel w => Sys2Proof.Machine.execNop sel w s
  | .ld sel w hit => Sys2Proof.Machine.execLd sel w hit s
  | .st sel w ecc => Sys2Proof.Machine.execSt sel w ecc s
  | .atomAdd sel w => Sys2Proof.Machine.execAtomAdd sel w s
  | .atomMin sel w => Sys2Proof.Machine.execAtomMin sel w s
  | .atomMax sel w => Sys2Proof.Machine.execAtomMax sel w s
  | .atomAnd sel w => Sys2Proof.Machine.execAtomAnd sel w s
  | .atomOr sel w => Sys2Proof.Machine.execAtomOr sel w s
  | .atomXor sel w => Sys2Proof.Machine.execAtomXor sel w s
  | .atomSwap sel w => Sys2Proof.Machine.execAtomSwap sel w s
  | .atomCas sel w => Sys2Proof.Machine.execAtomCas sel w s
  | .barC sel w => Sys2Proof.Machine.execBarC sel w s
  | .barG sel w => Sys2Proof.Machine.execBarG sel w s
  | .arrive sel w => Sys2Proof.Machine.execArrive sel w s
  | .await sel w => Sys2Proof.Machine.execAwait sel w s
  | .tallyAdd sel w => Sys2Proof.Machine.execTallyAdd sel w s
  | .tallyWait sel w => Sys2Proof.Machine.execTallyWait sel w s
  | .fence sel w => Sys2Proof.Machine.execFence sel w s
  | .mtileF sel w => Sys2Proof.Machine.execMtileF sel w s
  | .mtileB sel w => Sys2Proof.Machine.execMtileB sel w s
  | .mtileX sel w => Sys2Proof.Machine.execMtileX sel w s
  | .mload sel w => Sys2Proof.Machine.execMload sel w s
  | .mloadT sel w => Sys2Proof.Machine.execMloadT sel w s
  | .mstore sel w => Sys2Proof.Machine.execMstore sel w s
  | .mtxPassStart n => Sys2Proof.Machine.execMtxPassStart n s
  | .mtxPassResult n => Sys2Proof.Machine.execMtxPassResult n s
  | .mtxWeightLoadStart n => Sys2Proof.Machine.execMtxWeightLoadStart n s
  | .mtxWeightSetReady n => Sys2Proof.Machine.execMtxWeightSetReady n s
  | .mtxAccReadStart n => Sys2Proof.Machine.execMtxAccReadStart n s
  | .vop sel w => Sys2Proof.Machine.execVop sel w s
  | .vcompress sel w => Sys2Proof.Machine.execVcompress sel w s
  | .vexpand sel w => Sys2Proof.Machine.execVexpand sel w s
  | .vred sel w => Sys2Proof.Machine.execVred sel w s
  | .vld sel w => Sys2Proof.Machine.execVld sel w s
  | .vst sel w => Sys2Proof.Machine.execVst sel w s
  | .vecInstructionStart n => Sys2Proof.Machine.execVecInstructionStart n s
  | .vecInstructionEnd n id => Sys2Proof.Machine.execVecInstructionEnd n id s
  | .acopy sel w => Sys2Proof.Machine.execAcopy sel w s
  | .acopyDone n id => Sys2Proof.Machine.execAcopyDone n id s
  | .astart sel w => Sys2Proof.Machine.execAstart sel w s
  | .astop sel w => Sys2Proof.Machine.execAstop sel w s
  | .streamRowFetch n c => Sys2Proof.Machine.execStreamRowFetch n c s
  | .streamRowLand n c r ecc => Sys2Proof.Machine.execStreamRowLand n c r ecc s
  | .prefetchDrop n c r => Sys2Proof.Machine.execPrefetchDrop n c r s
  | .streamRowWrite n c => Sys2Proof.Machine.execStreamRowWrite n c s
  | .streamRowAccepted n c r => Sys2Proof.Machine.execStreamRowAccepted n c r s
  | .streamDrained n c => Sys2Proof.Machine.execStreamDrained n c s
  | .slotDrained n slot => Sys2Proof.Machine.execSlotDrained n slot s
  | .memDataArrival id ecc => Sys2Proof.Machine.execMemDataArrival id ecc s
  | .barrierWatchdog n k => Sys2Proof.Machine.execBarrierWatchdog n k s
  | .dmask sel w => Sys2Proof.Machine.execDmask sel w s
  | .pgather sel g => Sys2Proof.Machine.execPgather sel g s
  | .pgatherAdmit n g => Sys2Proof.Machine.execPgatherAdmit n g s
  | .pgatherDone n id => Sys2Proof.Machine.execPgatherDone n id s
  | .gsend sel w => Sys2Proof.Machine.execGsend sel w s
  | .proofOpen sel w => Sys2Proof.Machine.execProofOpen sel w s
  | .proofCommit sel w => Sys2Proof.Machine.execProofCommit sel w s
  | .proofDiscard sel w => Sys2Proof.Machine.execProofDiscard sel w s
  | .epochInstallDone p e => Sys2Proof.Machine.execEpochInstallDone p e s
  | .trnStepWrite p v => Sys2Proof.Machine.execTrnStepWrite p v s
  | .trnLsWrite p v => Sys2Proof.Machine.execTrnLsWrite p v s
  | .scrubRead c line ecc pass => Sys2Proof.Machine.execScrubRead c line ecc pass s
  | .refresh c bank => Sys2Proof.Machine.execRefresh c bank s
  | .duneHot b tj => Sys2Proof.Machine.execDuneHot b tj s
  | .duneCool b tj => Sys2Proof.Machine.execDuneCool b tj s
  | .reduce port k => Sys2Proof.Machine.execReduce port k s
  | .reduceAnswer port k => Sys2Proof.Machine.execReduceAnswer port k s
  | .reduceResend p step attempt tile mb => Sys2Proof.Machine.execReduceResend p step attempt tile mb s
  | .treeEvaluate p tile => Sys2Proof.Machine.execTreeEvaluate p tile s
  | .rootWrite p tile => Sys2Proof.Machine.execRootWrite p tile s
  | .rankDone port k => Sys2Proof.Machine.execRankDone port k s
  | .sendsClosed port k => Sys2Proof.Machine.execSendsClosed port k s
  | .ownerDoneSend => Sys2Proof.Machine.execOwnerDoneSend s
  | .ownerDone port k => Sys2Proof.Machine.execOwnerDone port k s
  | .stepDeadline => Sys2Proof.Machine.execStepDeadline s
  | .decision port k => Sys2Proof.Machine.execDecision port k s
  | .initBroadcast => Sys2Proof.Machine.execInitBroadcast s
  | .halt port k => Sys2Proof.Machine.execHalt port k s
  | .fabricFlit j good seq ack ty credits crTc crVl peer => Sys2Proof.Machine.execFabricFlit j good seq ack ty credits crTc crVl peer s
  | .fabricNak j seq => Sys2Proof.Machine.execFabricNak j seq s
  | .fabricReplayTimeout j => Sys2Proof.Machine.execFabricReplayTimeout j s
  | .linkLoss j => Sys2Proof.Machine.execLinkLoss j s
  | .portTrained j width slot port mgr job rank rtt => Sys2Proof.Machine.execPortTrained j width slot port mgr job rank rtt s
  | .portTrainRetry j => Sys2Proof.Machine.execPortTrainRetry j s
  | .laserLoss m => Sys2Proof.Machine.execLaserLoss m s
  | .write port k => Sys2Proof.Machine.execWrite port k s
  | .readReq port k ecc => Sys2Proof.Machine.execReadReq port k ecc s
  | .readData port k => Sys2Proof.Machine.execReadData port k s
  | .accumulate port k => Sys2Proof.Machine.execAccumulate port k s
  | .remoteIncrement port k => Sys2Proof.Machine.execRemoteIncrement port k s
  | .remoteDoorbell port k => Sys2Proof.Machine.execRemoteDoorbell port k s
  | .e2eAck port k => Sys2Proof.Machine.execE2eAck port k s
  | .e2eResend request bySlot dest key => Sys2Proof.Machine.execE2eResend request bySlot dest key s
  | .gatherReq port k ecc => Sys2Proof.Machine.execGatherReq port k ecc s
  | .gatherData port k => Sys2Proof.Machine.execGatherData port k s
  | .mirror port k => Sys2Proof.Machine.execMirror port k s
  | .faultRecord port k => Sys2Proof.Machine.execFaultRecord port k s
  | .join port k => Sys2Proof.Machine.execJoin port k s
  | .ping port k => Sys2Proof.Machine.execPing port k s
  | .pong port k => Sys2Proof.Machine.execPong port k s
  | .offset port k => Sys2Proof.Machine.execOffset port k s
  | .service port k => Sys2Proof.Machine.execService port k s
  | .alignmentPeriod => Sys2Proof.Machine.execAlignmentPeriod s
  | .managerLost => Sys2Proof.Machine.execManagerLost s
  | .sequencerMismatch cls n => Sys2Proof.Machine.execSequencerMismatch cls n s
  | .unitWatchdog cls n => Sys2Proof.Machine.execUnitWatchdog cls n s
  | .fillStart => Sys2Proof.Machine.execFillStart s
  | .fillAbort => Sys2Proof.Machine.execFillAbort s
  | .fillDone => Sys2Proof.Machine.execFillDone s
  | .fillData port k => Sys2Proof.Machine.execFillData port k s
  | .snapshotEnable v => Sys2Proof.Machine.execSnapshotEnable v s
  | .snapshotArm t => Sys2Proof.Machine.execSnapshotArm t s
  | .snapshotCancel => Sys2Proof.Machine.execSnapshotCancel s
  | .snapshotRestore => Sys2Proof.Machine.execSnapshotRestore s
  | .snapshotDone => Sys2Proof.Machine.execSnapshotDone s
  | .snapshotDriveError => Sys2Proof.Machine.execSnapshotDriveError s
  | .restoreDone h0 h1 content => Sys2Proof.Machine.execRestoreDone h0 h1 content s
  | .signerLoad => Sys2Proof.Machine.execSignerLoad s
  | .signerLoadDone bs => Sys2Proof.Machine.execSignerLoadDone bs s
  | .signerLock => Sys2Proof.Machine.execSignerLock s
  | .measurementExtend v => Sys2Proof.Machine.execMeasurementExtend v s
  | .logRelease seq => Sys2Proof.Machine.execLogRelease seq s
  | .quoteRequest v => Sys2Proof.Machine.execQuoteRequest v s
  | .quoteDone => Sys2Proof.Machine.execQuoteDone s
  | .monClear => Sys2Proof.Machine.execMonClear s
  | .monLatch p => Sys2Proof.Machine.execMonLatch p s
  | .monPartClear p => Sys2Proof.Machine.execMonPartClear p s
  | .pcSample p picks => Sys2Proof.Machine.execPcSample p picks s
  | .hangSnapshot => Sys2Proof.Machine.execHangSnapshot s
  | .partitionHangSnapshot p => Sys2Proof.Machine.execPartitionHangSnapshot p s
  | .hangCaptureDone => Sys2Proof.Machine.execHangCaptureDone s
  | .ringMark v => Sys2Proof.Machine.execRingMark v s
  | .afterFaultExpiry => Sys2Proof.Machine.execAfterFaultExpiry s
  | .laserLightRestored m => Sys2Proof.Machine.execLaserLightRestored m s
  | .ucodeFetched bs => Sys2Proof.Machine.execUcodeFetched bs s
  | .snapshotPortTrained drives => Sys2Proof.Machine.execSnapshotPortTrained drives s
  | .tc0LoadWindow j tc0 cap => Sys2Proof.Machine.execTc0LoadWindow j tc0 cap s
  | .pwrVinUpdate mv amp watt => Sys2Proof.Machine.execPwrVinUpdate mv amp watt s

end Sys2Proof.Machine
end

