-- ==== Sys2Proof/Machine/Tick.lean ====
section
/-! DEFINITION. One tcycle in which no command comes (log 2). -/

namespace Sys2Proof.Machine

/-- Partitions with a held PGATHER count the tcycle (R439). -/
def heldTick : Act := .dyn fun d =>
  let held := d.eng.quires.filterMap fun kv => (d.quirePart kv.1).filter fun p => d.gathersHeld p kv.2 != []
  Act.each held.eraseDups fun p => Act.add (TRN_GATHER_COUNT_HELD_TCYCLES p) 1

/-- A tcycle passes: caravans and threads that could issue and did not have waited one more (R225, R227), nothing has happened in the next one yet (R189, R199, R203), the stamp counter runs, held gathers count, the aligned stamp moves toward its target, and the
link returns credits (R96, R129, R439, R566). Nothing runs before RESET_N has risen. -/
def tick : Act := .dyn fun d => Act.when (d.eng.pwr.good && d.eng.pwr.resetN)
  (.all [Act.each (d.eng.quires.map Prod.fst) issueTick, .eng fun e => { e with stamp := e.stamp + 1, tcyc := Tcycle.new }, heldTick, slew, axlTick])

end Sys2Proof.Machine
end

