-- ==== Sys2Proof/Safety.lean ====
section
/-! DEFINITION. What counts as a well-kept state, and the terms in which the statements speak: a command that completes,
what a change leaves alone, a ring whose descriptor starts, and a path whose instruction issues. -/

namespace Sys2Proof.Machine

/-! ### Well-kept states -/

/-- Device memory in canonical form: keys strictly rising, no byte listed that an unlisted key reads as. -/
def Memory.wf (m : List Host.Cell) : Bool := Store.wf memDflt m

/-- The register store in canonical form: offsets strictly rising, no register listed that holds its reset value. -/
def Regs.wf (r : Store DWord) : Bool := Store.wf resetOf r

/-- A state whose memory and registers are in canonical form, so that equal contents are equal data. -/
def State.wf (s : State) : Bool := Memory.wf s.d.mem && Regs.wf s.d.regs

/-! ### Completion and frames -/

/-- The command completes: exec answers a next state, the queue stands as it was, and the device after it is as
described. -/
def Does (c : Instr) (s : State) (post : Dev → Prop) : Prop :=
  ∃ t, exec c s = .next t ∧ t.pending = s.pending ∧ post t.d

/-- Every byte of device memory reads as before. -/
def SameMem (d e : Dev) : Prop := ∀ k, e.byte k = d.byte k

/-- Every byte of device memory outside n bytes from a key on reads as before. -/
def SameMemBut (d e : Dev) (key n : Nat) : Prop := ∀ k, ¬ (key ≤ k ∧ k < key + n) → e.byte k = d.byte k

/-- The n bytes from a key on read as a byte string says. -/
def MemHolds (e : Dev) (key : Nat) (bs : List Byte) : Prop := ∀ i, i < bs.length → e.byte (key + i) = bs.getD i 0

/-- Every register outside a set reads as before. -/
def SameRegs (d e : Dev) (except : Nat → Prop) : Prop := ∀ o, ¬ except o → e.reg o = d.reg o

/-- A range of register offsets. -/
def offs (lo hi : Nat) (o : Nat) : Prop := lo ≤ o ∧ o < hi

/-- The event rings of the units (R645). -/
def ringRegs (o : Nat) : Prop :=
  offs (MON_RING_COUNT 0) (MON_RING_COUNT 1605) o ∨ offs (MON_RING 0 0) (MON_RING 1605 0) o

/-- The registers that a posted record may change: the link's, the partitions', the queues'. -/
def postRegs (o : Nat) : Prop := offs 0xC00000 0xD00000 o ∨ offs 0x1500000 0x1900000 o ∨ 0x4000000 ≤ o

/-- The registers that a fault record may change: those of an event and of a posting, the RES_ block, the boot log and
the ports' traffic counters. -/
def recordRegs (o : Nat) : Prop :=
  ringRegs o ∨ postRegs o ∨ offs 0x300000 0x400000 o ∨ offs 0x1000 0x2000 o ∨ o = CFG_BOOT_LOG_COUNT ∨
  offs 0xE00000 0xF00000 o

/-- A software write of `width` bytes at an offset reaches one register, with the bits `lanes` of it: the whole of a 64-bit
register, the low four bytes, or the high four bytes (R9, R25). -/
def Reaches (off width : Nat) (r : RegDef) (reg lanes : Nat) : Prop :=
  off % width = 0 ∧
  ((width = 8 ∧ regAt off = some r ∧ r.wide = true ∧ reg = off ∧ lanes = lowMask 64) ∨
   (width = 4 ∧ regAt off = some r ∧ reg = off ∧ lanes = lowMask 32) ∨
   (width = 4 ∧ regAt off = none ∧ 4 ≤ off ∧ regAt (off - 4) = some r ∧ r.wide = true ∧ reg = off - 4 ∧
     lanes = lowMask 32 * 2 ^ 32))

/-- Four bytes of the register window that belong to no register (R9, R28). -/
def Gap (off : Nat) : Prop := regAt off = none ∧ ∀ r, regAt (off - 4) = some r → r.wide = false

/-- The response to an MCTP command, after the header of its message, and nothing else. -/
def Dev.answers (d : Dev) (bs : List Byte) : Dev :=
  { d with eng := { d.eng with recs := { d.eng.recs with answer := mctpHead ++ bs } } }

/-- A message stands among those given to the Axoft Link: in a held flit, or waiting for credit. -/
def Dev.hasSent (d : Dev) (m : Msg) : Prop := m ∈ d.eng.axl.held.map HeldFlit.msg ∨ m ∈ d.eng.axl.wait

/-- The link is ACTIVE and nothing that the host sent earlier waits, so that what it sends next is carried out (R152). -/
def Dev.hostTurn (d : Dev) : Bool := d.axlUp && !d.hostWriteWaits && d.eng.axl.inq == []

/-- A request of the host to an address is for byte o of partition p's presented memory, and is served: the link is
ACTIVE, the address is in AXL_MEM_BAR and not in AXL_REG_BAR, boot has reached FABRIC, and no image is being applied nor
the partition reset (R108, R146 to R148). -/
def HostServed (d : Dev) (addr p o : Nat) : Prop :=
  d.alive = true ∧ d.axlUp = true ∧ addr < 2 ^ 64 ∧
  ¬ (d.fld AXL_REG_BAR_BASE ≤ addr ∧ addr < d.fld AXL_REG_BAR_BASE + 2 ^ 27) ∧ d.memAt addr = some (p, o) ∧
  6 ≤ d.fld PWR_BOOT_STATUS_PHASE ∧ d.fld CFG_IMAGE_STATUS_STATE ≠ 5 ∧ d.fld CFG_IMAGE_STATUS_STATE ≠ 6 ∧
  bit (d.fld PWR_RESET_BUSY_PARTS) p = false ∧ d.inMemory p o 1 = true

/-- Such a request that no write of the host has to go before (R152). -/
def HostReaches (d : Dev) (addr p o : Nat) : Prop := HostServed d addr p o ∧ d.hostTurn = true

/-- The device takes image and microcode operations: PHASE READY, no operation in progress. -/
def Idle (d : Dev) : Prop := d.alive = true ∧ d.loaderIdle = true

/-- The outcome of an image operation that is turned down: STATE IDLE, the error, the record; the configuration as it
was. -/
def Rejected (d e : Dev) (error idx : Nat) : Prop :=
  e.fld CFG_IMAGE_STATUS_STATE = 0 ∧ e.fld CFG_IMAGE_STATUS_ERROR = error % 256 ∧
  e.fld CFG_IMAGE_STATUS_ERROR_RECORD = idx % 65536 ∧ e.eng.cfg = d.eng.cfg ∧ SameMem d e

/-- Every line that n bytes at offset o of partition p touch is free for a write: no host cache holds it, no transaction on
it is unfinished, whenever it came, and its channel is not fenced (R138, R141, R477). -/
def FreeLines (d : Dev) (p o n : Nat) : Prop :=
  ∀ l ∈ linesOf o n, d.hostHolds (lineKey p l) = none ∧ (∀ after, d.lineBusyBefore none (lineKey p l) after = false) ∧
    d.chanFenced (d.chanOf p l) = false

/-- A demand access on committed lines of partition p has its data next: no transaction on a line of it that came before is
unfinished, the host has given back what it needs, and nothing else waits at the homes (R138, R141). -/
def ComesNext (d : Dev) (y : MemWait) (p : Nat) : Prop :=
  (∀ k ∈ y.keys, d.lineBusyBefore none k y.id = false) ∧ d.toAsk p none y = [] ∧ d.eng.axl.home = [] ∧ d.eng.axl.inq = []

/-- No number that a task, a service, an owner or a request of the host carries has still to be given out. -/
def NumbersFresh (d : Dev) : Prop :=
  0 < d.eng.nextTask ∧ (∀ t ∈ d.eng.tasks, t.id < d.eng.nextTask) ∧ (∀ x ∈ d.eng.svcs, x.task < d.eng.nextTask) ∧
  (∀ kv ∈ d.eng.owners, kv.1 < d.eng.nextTask)

/-- The descriptor b in slot HEAD of ring q of partition p starts now: the partition takes work, the ring is enabled and not
empty, the descriptor has been read or is read now and keeps every rule, nothing it waits for is missing, no other ring of
its kind competes, and none has started a descriptor in this tcycle (R187 to R192, R447). -/
structure Starts (d : Dev) (p q : Nat) (fromHost b : List Byte) : Prop where
  alive : d.alive = true
  numbers : NumbersFresh d
  part : d.queuePart q = some p
  takes : d.dispatching p = true
  enabled : d.ringEnabled q = true
  pending : d.ringPending q ≠ 0
  slotHere : ∀ r ∈ d.headRange p q, d.hostBusy r.1 r.2.1 r.2.2 = []
  descriptor : d.descriptor p q fromHost = some b
  first : (d.ring q).desc = none
  good : d.badDescriptor p q b = false
  answer : (d.cqOf p b).isSome = true
  tally : d.tallyGate p b = 1
  epoch : d.epochGate p b = 0
  order : d.orderedOk q b = true
  alone : ∀ kv ∈ d.eng.rings, kv.1 = q ∨ d.queuePart kv.1 ≠ some p ∨ d.queueKind kv.1 ≠ d.queueKind q ∨
    d.startable kv.1 = false
  share : groupKey p (d.queueKind q) ∉ d.eng.tcyc.started

/-- The task that the start of b made, as it stands after a command. -/
def Dev.started (d e : Dev) (b : List Byte) (t : Task) : Prop :=
  e.task d.eng.nextTask = some t ∧ t.id = d.eng.nextTask ∧ t.desc = b

/-- The slot at HEAD of a ring has been taken (R176). -/
def SlotTaken (d e : Dev) (q : Nat) : Prop :=
  e.fld (QUE_HEAD_HEAD q) = (d.fld (QUE_HEAD_HEAD q) + 1) % d.ringSize q % 65536

/-- A packet of a kind, with a payload, has been handed to the fabric for a destination: it stands on a port's link or
waits for one, or comes back to this device. -/
def Dev.fabHas (d : Dev) (kind dest : Nat) (data : List Byte) : Prop :=
  ∃ k : Pkt, k.kind = kind ∧ k.dest = dest ∧ k.data = data ∧
    (k ∈ d.eng.fab.unrouted ∨ k ∈ d.eng.fab.own ∨ ∃ j, j < 32 ∧ (k ∈ (d.port j).wait ∨ k ∈ (d.port j).held.map HeldPkt.pkt))

/-- A windowed packet that has not been acknowledged, or waits for a place among the 1,024 in flight (R543, R544). -/
def Dev.windowHas (d : Dev) (kind dest addr arg : Nat) (data : List Byte) : Prop :=
  ∃ k ∈ d.eng.fab.e2e.map E2E.pkt ++ d.eng.fab.blocked.map Prod.fst,
    k.kind = kind ∧ k.dest = dest ∧ k.addr = addr ∧ k.arg = arg ∧ k.data = data

/-- The device as a cold reset leaves it: every register at its reset value; device memory is left to boot, which zeroes it
(R86, R92). -/
def Cold (d e : Dev) : Prop := (∀ o, o < 2 ^ 27 → e.reg o = resetOf o) ∧ SameMem d e

/-! ### Igtik instructions -/

/-- A base-format instruction of a class and operation issues at a program counter: its caravan runs and goes next on its
quire, its path goes next in the caravan; the word stands in memory there, is legal and within the registers of the kernel;
no uniform register that it uses is still to be written, and its unit can take it. The context names the caravan, its
gathering and task, the path and the lanes whose guard is true (R224 to R226, R248, R255 to R266). -/
structure Issues (d : Dev) (sel : Sel) (cls op : Nat) (w : BaseW) (x : Ctx) : Prop where
  alive : d.alive = true
  ranges : sel.quire < 1536 ∧ x.task.part < 64
  running : d.running sel.quire sel.slot = some (x.c, x.g, x.task)
  context : x = d.ctx sel x.c x.g x.task w
  word : d.fetch x.task sel.pc = .base cls op w
  code : d.fetchBusy x.task sel.pc = []
  turn : d.nextSlot sel.quire = some sel.slot ∧ d.nextPath sel.quire sel.slot = some sel.pc
  someone : x.path ≠ []
  legal : baseIllegal cls op w = false
  range : (baseShape cls op w).outOfRange w x.task.regs = false
  ready : ∀ u ∈ (d.quire x.n).pendingUni x.slot, u ∉ (baseShape cls op w).uniforms w
  unit : d.baseHeld x cls = false

/-- Of a quire only one caravan changed and which slot issued last, of the engines only that quire and what the tcycle
counts. -/
def CaravanOnly (d e : Dev) (n slot : Nat) (c : Caravan) : Prop :=
  e.caravan n slot = some c ∧ (∀ m k, ¬ (m = n ∧ k = slot) → e.caravan m k = d.caravan m k) ∧
  (∀ m, m ≠ n → e.quire m = d.quire m) ∧
  e.quire n = { d.quire n with caravans := (e.quire n).caravans, lastSlot := slot } ∧
  e.eng = { d.eng with quires := e.eng.quires, tcyc := e.eng.tcyc }

/-- The path has passed its instruction; every other lane stands where it stood, and no thread changed its state. -/
def Passed (x : Ctx) (c : Caravan) : Prop :=
  (∀ l, l < 32 → c.pc l = if l ∈ x.path then x.c.pc l + 8 else x.c.pc l) ∧ ∀ l, c.thread l = x.c.thread l

/-- What an instruction writes into the k registers from DST on: f i l is register i of lane l. A general register takes
it for each executing lane, a uniform one from the lowest of them, a predicate its bit 0, and gz nothing (R260 to R262). -/
def Written (x : Ctx) (c : Caravan) (k : Nat) (f : Nat → Nat → Word) : Prop :=
  (∀ r l, l < 32 → c.reg r l = match opnd x.w.dst with
    | .g r0 => if r0 ≤ r ∧ r < r0 + k ∧ l ∈ x.exec then f (r - r0) l else x.c.reg r l
    | _ => x.c.reg r l) ∧
  (∀ r, c.uni r = match opnd x.w.dst, x.exec with
    | .u r0, l :: _ => if r0 ≤ r ∧ r < r0 + k then f (r - r0) l else x.c.uni r
    | _, _ => x.c.uni r) ∧
  (∀ r l, l < 32 → c.pred r l = match opnd x.w.dst with
    | .p r0 => if r = r0 ∧ l ∈ x.exec then (f 0 l).getLsbD 0 else x.c.pred r l
    | _ => x.c.pred r l)

/-- No register of the caravan is written. -/
def SameLaneRegs (x : Ctx) (c : Caravan) : Prop :=
  (∀ r l, c.reg r l = x.c.reg r l) ∧ (∀ r, c.uni r = x.c.uni r) ∧ ∀ r l, c.pred r l = x.c.pred r l

/-- An instruction whose whole effect is one value per lane in DST. -/
def Lanes (d e : Dev) (x : Ctx) (f : Nat → Word) : Prop :=
  e.regs = d.regs ∧ e.mem = d.mem ∧
    ∃ c, CaravanOnly d e x.n x.slot c ∧ Passed x c ∧ Written x c 1 fun _ => f

/-- An FP32 value, or both halves of a packed one, by the format that MOD[3:2] names (R269). -/
def byFormat (mod : Nat) (f : Fmt → Nat → (Word → Nat) → Nat) : Word :=
  let both := fun fm : Fmt => BitVec.ofNat 16 (f fm 1 fun a => a.toNat / 65536) ++
    BitVec.ofNat 16 (f fm 0 fun a => a.toNat % 65536)
  match field mod 2 2 with
  | 0 => BitVec.ofNat 32 (f fp32 0 BitVec.toNat)
  | 1 => both bf16
  | _ => both fp16

/-- Register i of the words of a number. -/
def wordOf (v : Nat) (i : Nat) : Word := BitVec.ofNat 32 (v / 2 ^ (32 * i))

/-- The registers of the threads and their units (07, 09, 10, 12). -/
def thrRegs (o : Nat) : Prop := offs 0x2000000 0x4000000 o

/-- A collective of a class and operation issues: its caravan and path go next, the word pair stands in memory there, is legal
and names no register of a thread, every live lane of the mask has arrived, on this path or waiting, and its unit can take
it (R224 to R226, R240, R241, R255 to R266). -/
structure IssuesLong (d : Dev) (sel : Sel) (cls op : Nat) (w : LongW) (x : LCtx) : Prop where
  alive : d.alive = true
  ranges : sel.quire < 1536 ∧ x.task.part < 64
  running : d.running sel.quire sel.slot = some (x.c, x.g, x.task)
  context : x = d.lctx sel x.c x.g x.task w
  word : d.fetch x.task sel.pc = .long cls op w
  code : d.fetchBusy x.task sel.pc = []
  turn : d.nextSlot sel.quire = some sel.slot ∧ d.nextPath sel.quire sel.slot = some sel.pc
  legal : longIllegal cls op w = false
  uniform : (longShape cls op w).perThread w = false
  someone : ∃ l ∈ x.c.path x.pc ++ x.c.collWait x.pc x.mask, bit x.mask l = true
  everyone : ∀ l ∈ x.c.live, bit x.mask l = true → l ∈ x.c.path x.pc ∨ l ∈ x.c.collWait x.pc x.mask
  unit : d.longVerdict x cls op ≠ .held

/-- The threads of a collective that has issued are ACTIVE past it, those of the path outside its mask too. -/
def CollPassed (e : Dev) (x : LCtx) : Prop :=
  ∃ c, e.caravan x.n x.slot = some c ∧ ∀ l, l < 32 →
    if l ∈ x.c.path x.pc ∨ x.c.thread l = .waitColl x.pc x.mask then c.thread l = .active ∧ c.pc l = x.c.pc l + 16
    else c.thread l = x.c.thread l ∧ c.pc l = x.c.pc l

/-! ### Packets of the fabric -/

/-- A packet from the fabric reaches partition p of this device: its port is UP; it names this device's rank, which p
holds, or comes BY_SLOT from the board slot opposite the port for a partition that accepts it; p is not under reset; it
carries no epoch; and a windowed one is neither old nor a duplicate (R537, R545, R546, R567). -/
structure Arrives (d : Dev) (port : Nat) (k : Pkt) (p : Nat) : Prop where
  alive : d.alive = true
  part : p < 64
  link : port < 32 ∧ d.portUp port = true
  here : (k.bySlot = false ∧ d.hasRanks = true ∧ k.dest = d.ownRank ∧ d.rankPart = some p) ∨
    (k.bySlot = true ∧ 4 ≤ port ∧ d.eng.pwr.straps.slot ^^^ port / 4 = k.src ∧ k.dest = d.eng.pwr.straps.slot ∧
      k.part = p ∧ k.srcPart = p ∧ d.slotAccept p = true)
  notReset : d.underReset p = false
  noEpoch : k.epoch = 0
  fresh : windowed k.kind = true → ∀ w, d.winOf p k = some w → w.incarnation = k.incarnation ∧ w.isDup k.seq = false

/-- A fault record of a kind has been made: it is counted and flagged, and stands among the last 16 (R577 to R580). -/
def Recorded (d e : Dev) (kind : Nat) : Prop :=
  e.eng.recs.made = d.eng.recs.made + 1 ∧ e.flag RES_STATUS_RECORD = true ∧
  e.fld RES_COUNT_A_RECORDS = (d.fld RES_COUNT_A_RECORDS + 1) % 2 ^ 32 ∧
  field (e.reg (RES_RECORD (d.fld RES_COUNT_A_RECORDS % 16) 0)).toNat 16 16 = kind

/-- A measurement register has been extended by an event: MRk is SM3 of MRk, TYPE and D, no other one changed, and the
event stands in the log of 256 entries, or is counted as lost (R618, R621). -/
def Extended (d e : Dev) (k ty : Nat) (dg : List Byte) : Prop :=
  e.meas k = sm3 (d.meas k ++ leBytes 4 ty ++ fit 32 dg) ∧ (∀ j, j < 8 → j ≠ k → e.meas j = d.meas j) ∧
  e.eng.sec.logSeq = d.eng.sec.logSeq + 1 ∧ e.mem = d.mem ∧
  if d.eng.sec.logSeq - d.fld SEC_LOG_HEAD_SEQ < 256 then
    ∀ i, i < 8 → e.reg (SEC_LOG (d.eng.sec.logSeq % 256) i) = BitVec.ofNat 64 (leAt (logEntry d k ty dg) (8 * i) 8)
  else e.flag SEC_STATUS_LOG_LOST = true ∧ e.fld SEC_COUNT_LOG_LOST = (d.fld SEC_COUNT_LOG_LOST + 1) % 2 ^ 32

end Sys2Proof.Machine
end

