-- ==== Sys2Proof/Certificates/Slice0/Obligations.lean ====
section
/-! DEFINITION. The statements: what the device does, command by command, by the numbered rules of the spec. Does c s post
says that command c, carried out in state s, completes in a next state whose device is as post says. -/

open Sys2Proof Sys2Proof.Machine

/-! ### The machine -/

/-- A step takes the command at the front of the queue and carries it out with the queue's rest. -/
def Obligations.StepRunsFront : Prop :=
  ∀ (c : Instr) (s : State), step { s with pending := c :: s.pending } = exec c s

/-- With no command waiting a tcycle passes. While RESET_N is low or PWR_GOOD is, nothing changes; otherwise, where nothing
of the host waits for a line, the stamp counter counts, memory stays as it is, and the next tcycle begins with nothing done
in it; the model's choice (log 2). -/
def Obligations.IdleIsATcycle : Prop :=
  ∀ s : State, s.pending = [] → ∃ t, step s = .next t ∧ t.pending = [] ∧
    ((s.d.eng.pwr.good && s.d.eng.pwr.resetN) = false → t = s) ∧
    (s.d.eng.pwr.good = true → s.d.eng.pwr.resetN = true → s.d.eng.axl.home = [] → s.d.eng.axl.inq = [] →
      t.d.eng.stamp = s.d.eng.stamp + 1 ∧ SameMem s.d t.d ∧ t.d.eng.tcyc = Tcycle.new)

/-- Every command completes in every state, and none touches the queue. A device that is out of reset but has failed its
boot ignores what comes from its host and its units; the model's choice for the commands whose condition fails (log 1).
-/
def Obligations.EveryCommandCompletes : Prop :=
  (∀ (c : Instr) (s : State), ∃ t, exec c s = .next t ∧ t.pending = s.pending) ∧
  (∀ s : State, s.d.alive = false → ∀ c ∈ [Instr.imageLoad, .seal, .revert, .cancel, .ucodeLoad, .signerLoad, .signerLock,
      .hangSnapshot, .monClear, .fillStart, .snapshotRestore, .axlLinkLoss, .managerLost, .alignmentPeriod],
    exec c s = .next s)

/-- Every step keeps device memory and the register store in canonical form. -/
def Obligations.StepKeepsCanonicalForm : Prop :=
  ∀ s t : State, s.wf = true → step s = .next t → t.wf = true

/-- Reset is in canonical form, with nothing waiting. After a cold reset a register reads the Reset column of its table:
one register or more of many blocks (R6). No number that is still to be given out is in use after reset. -/
def Obligations.ResetLeaves : Prop :=
  (State.reset.wf = true ∧ State.reset.pending = []) ∧
  (∀ x ∈ [(CFG_DEVICE_ID, 0x4E530910), (CFG_BAD_ACCESS, 0), (PWR_UV_WARN, 41000), (PWR_THERM_WARN, 100), (AXL_STATUS, 0),
      (CFG_SEAL_STATUS, 0), (FAB_CFG, 8), (RES_COUNT_A, 0), (SEC_STATUS, 0), (MON_PC_CFG 0, 0xC20), (THR_WDOG 0, 0x4000000)],
    State.reset.d.reg x.1 = BitVec.ofNat 64 x.2) ∧
  (NumbersFresh State.reset.d)

/-! ### Registers and the sideband (00, 01) -/

/-- A write of another width or alignment is discarded and counted (R25, R33). An offset in no register, in a block or in
none, reads as 0, a write to it is ignored, and neither counts as a bad access (R9, R28). -/
def Obligations.BadAccessCountsAndGapsReadZero : Prop :=
  (∀ off width v s, s.d.alive = true → accessOk off width = false →
    Does (.registerWrite off width v) s fun e =>
      e.fld CFG_BAD_ACCESS_COUNT = min (s.d.fld CFG_BAD_ACCESS_COUNT + 1) 0xFFFFFFFF ∧ e.mem = s.d.mem ∧
      e.eng = s.d.eng ∧ SameRegs s.d e (· = CFG_BAD_ACCESS)) ∧
  ∀ off n s, accessOk off n = true → Gap off → (n = 8 → Gap (off + 4)) →
    (∀ v, exec (.registerWrite off n v) s = .next s) ∧ s.d.readAt off n = 0 ∧
    ∀ tag addr, s.d.alive = true → s.d.hostTurn = true → addr = s.d.fld AXL_REG_BAR_BASE + off → addr < 2 ^ 64 →
      off < 2 ^ 27 → Does (.rdUc tag addr n .clean) s fun e => e.mem = s.d.mem ∧ e.regs = s.d.regs ∧
        e.hasSent { Msg.mk0 opData with tag := tag % 16384, addr := addr, len := n, data := leBytes n 0 }

/-- A write of a register that only stores: of the bits written, RW bits take the value, RWL bits unless sealed, 1s clear
W1C bits that hardware has not set in the same tcycle, and every other bit stays (R4, R7, R203); registers whose writes act,
and values that are turned down, have rules of their own. -/
def Obligations.RegisterWriteStores : Prop :=
  ∀ off width v s r reg lanes, s.d.alive = true → Reaches off width r reg lanes → r.rw ||| r.rwl ||| r.w1c ≠ 0 →
    s.d.takesWrite r.base reg ((indices r.dims (reg - r.base)).getD 0 0) = true →
    (∀ stored, writeAction r.base (indices r.dims (reg - r.base)) lanes stored = none) →
    (∀ x ∈ fieldRules s.d, x.1 ≠ r.base) → reg ≠ CFG_SEAL_STATUS →
    Does (.registerWrite off width v) s fun e =>
      (∀ i, i < 64 → (e.reg reg).getLsbD i =
        (let w := bit (if reg = off then v else v * 2 ^ 32) i
         if !bit lanes i then (s.d.reg reg).getLsbD i
         else if bit r.w1c i && w && !bit (s.d.raisedBits reg) i then false
         else if bit r.rw i || (bit r.rwl i && !s.d.flag CFG_SEAL_STATUS_SEALED) then w
         else (s.d.reg reg).getLsbD i)) ∧
      e.mem = s.d.mem ∧ SameRegs s.d e fun o => o = reg ∨ o = CFG_SEAL_STATUS ∨ ringRegs o

/-- A write by software to an RWL field after sealing, by a register write or a WR_PART of the host, leaves the field unchanged, raises no fault and is counted (R5, R65). -/
def Obligations.SealedWriteIsIgnored : Prop :=
  ∀ off width v s r reg lanes, s.d.alive = true → Reaches off width r reg lanes → r.rwl &&& lanes ≠ 0 →
    s.d.takesWrite r.base reg ((indices r.dims (reg - r.base)).getD 0 0) = true →
    s.d.flag CFG_SEAL_STATUS_SEALED = true →
    let ignored := fun e : Dev => (∀ i, bit r.rwl i = true → (e.reg reg).getLsbD i = (s.d.reg reg).getLsbD i) ∧
      e.fld CFG_SEAL_STATUS_IGNORED_WRITES = min (s.d.fld CFG_SEAL_STATUS_IGNORED_WRITES + 1) 0xFFFFFFFF ∧
      e.mem = s.d.mem
    (Does (.registerWrite off width v) s fun e => ignored e ∧ e.eng = { s.d.eng with pwr := e.eng.pwr }) ∧
    ∀ tag addr, s.d.hostTurn = true → addr = s.d.fld AXL_REG_BAR_BASE + off → addr < 2 ^ 64 → off < 2 ^ 27 →
      Does (.wrPart tag addr width (leBytes width v) false .clean) s fun e => ignored e ∧
        e.hasSent { Msg.mk0 opCmp with tag := tag % 16384, addr := addr }

/-- No register has a side effect when read: a read over MCTP answers the register, or REFUSED outside the registers of R29 or for a bad access, and a RD_UC of the host is answered with the register, or with 0 and counted for a bad access; no register changes (R25 to R27, R29, R30). -/
def Obligations.ReadRegHasNoSideEffect : Prop :=
  (∀ off width s, s.d.eng.pwr.good = true → s.d.eng.pwr.resetN = true →
    exec (.readReg off width) s = .next ⟨s.pending,
      s.d.answers (if readRegOk off width then 0x00 :: leBytes width (s.d.readAt off width) else [0x01])⟩) ∧
  ∀ tag addr off n s, s.d.alive = true → s.d.hostTurn = true → n = 4 ∨ n = 8 →
    addr = s.d.fld AXL_REG_BAR_BASE + off → addr < 2 ^ 64 → off < 2 ^ 27 →
    Does (.rdUc tag addr n .clean) s fun e => e.mem = s.d.mem ∧
      e.hasSent { Msg.mk0 opData with tag := tag % 16384, addr := addr, len := n
                                      data := leBytes n (if accessOk off n then s.d.readAt off n else 0) } ∧
      if accessOk off n then e.regs = s.d.regs
      else SameRegs s.d e (· = CFG_BAD_ACCESS) ∧
        e.fld CFG_BAD_ACCESS_COUNT = min (s.d.fld CFG_BAD_ACCESS_COUNT + 1) 0xFFFFFFFF

/-- GET_RECORD answers the oldest record of the outbox, or EMPTY; ACK_RECORD releases the record it names, or answers
BAD_REQUEST; an unknown command is a BAD_REQUEST; GET_QUOTE without an identity is REFUSED and otherwise captures the
quote, waits for one of the host that is being signed, or answers BUSY to a second one of its own (R30, R579, R622). -/
def Obligations.SidebandAnswers : Prop :=
  ∀ s, s.d.eng.pwr.good = true → s.d.eng.pwr.resetN = true →
    (exec .getRecord s = .next ⟨s.pending, s.d.answers (match s.d.eng.recs.outbox with
      | [] => [0x03]
      | r :: _ => 0x00 :: r.bytes)⟩) ∧
    (∀ seq, Does (.ackRecord seq) s fun e =>
      e.regs = s.d.regs ∧ e.mem = s.d.mem ∧
      if ∃ r ∈ s.d.eng.recs.outbox, r.seq = seq then
        e.eng.recs.answer = mctpHead ++ [0x00] ∧ e.eng.recs.outbox = s.d.eng.recs.outbox.filter (fun r => r.seq != seq)
      else e = s.d.answers [0x04]) ∧
    (∀ code, ¬ (1 ≤ code ∧ code ≤ 4) → exec (.mctpUnknownCommand code) s = .next { s with d := s.d.answers [0x04] }) ∧
    (∀ nonce mask, s.d.flag SEC_STATUS_IDENTITY = false →
      exec (.getQuote nonce mask) s = .next { s with d := s.d.answers [0x01] }) ∧
    (∀ nonce mask, s.d.flag SEC_STATUS_IDENTITY = true → s.d.alive = true → s.d.eng.sec.quote = none →
        s.d.eng.sec.quoteNext = none →
      Does (.getQuote nonce mask) s fun e => e.eng.sec.quote = some (1, nonce, mask % 256) ∧ e.regs = s.d.regs ∧
        e.mem = s.d.mem) ∧
    (∀ nonce mask x, s.d.flag SEC_STATUS_IDENTITY = true → s.d.alive = true → s.d.eng.sec.quote = some (0, x) →
        s.d.eng.sec.quoteNext = none →
      Does (.getQuote nonce mask) s fun e => e.eng.sec.quote = some (0, x) ∧
        e.eng.sec.quoteNext = some (1, nonce, mask % 256) ∧ e.regs = s.d.regs ∧ e.mem = s.d.mem) ∧
    (∀ nonce mask x, s.d.flag SEC_STATUS_IDENTITY = true → s.d.alive = true → s.d.eng.sec.quote = some (1, x) →
      exec (.getQuote nonce mask) s = .next { s with d := s.d.answers [0x02] })

/-! ### Images and microcode (02, 04) -/

/-- LOAD begins a fetch, REVERT waits for a quiesce point, SEAL seals, on an idle loader; an operation in progress makes
each of them a counted, ignored write (R48, R55, R59, R64). A LOAD while the Axoft Link is down ends with DIGEST, the
model's choice (log 110). CANCEL in WAIT_QUIESCE abandons the switch with CANCELLED,
and in any other state it is ignored and counted; a timeout abandons it with TIMEOUT (R61, R62). -/
def Obligations.ImageControlActs : Prop :=
  ((∀ s, Idle s.d → s.d.axlUp = true → Does .imageLoad s fun e =>
      e.fld CFG_IMAGE_STATUS_STATE = 1 ∧ e.fld CFG_IMAGE_STATUS_ERROR = 0 ∧ e.fld CFG_IMAGE_STATUS_ERROR_RECORD = 0 ∧
      e.eng.img.op = 0 ∧ e.eng.cfg = s.d.eng.cfg ∧ e.mem = s.d.mem ∧
      SameRegs s.d e fun o => o = CFG_IMAGE_STATUS ∨ ringRegs o) ∧
  (∀ s, Idle s.d → s.d.axlUp = false → s.d.eng.pwr.heldResets = [] → Does .imageLoad s fun e =>
      Rejected s.d e ieDigest 0xFFFF) ∧
  (∀ s, Idle s.d → Does .revert s fun e =>
      e.fld CFG_IMAGE_STATUS_STATE = 4 ∧ e.eng.img.op = 2 ∧ e.eng.img.scope = s.d.fld CFG_OVERLAY_SCOPE_PARTS ∧
      e.eng.cfg = s.d.eng.cfg ∧ e.mem = s.d.mem ∧ SameRegs s.d e fun o => o = CFG_IMAGE_STATUS ∨ ringRegs o) ∧
  (∀ s, Idle s.d → Does .seal s fun e =>
      e.flag CFG_SEAL_STATUS_SEALED = true ∧ e.eng.cfg = s.d.eng.cfg ∧ e.mem = s.d.mem ∧
      SameRegs s.d e fun o => o = CFG_SEAL_STATUS ∨ offs 0x200000 0x300000 o) ∧
  (∀ s, s.d.alive = true → s.d.fld CFG_IMAGE_STATUS_STATE ≠ 0 → ∀ c ∈ [Instr.imageLoad, .seal, .revert, .ucodeLoad],
    Does c s fun e =>
      e.fld CFG_IMAGE_COUNT_IGNORED_CTRL = min (s.d.fld CFG_IMAGE_COUNT_IGNORED_CTRL + 1) 0xFFFF ∧
      e.eng = s.d.eng ∧ e.mem = s.d.mem ∧ SameRegs s.d e (· = CFG_IMAGE_COUNT))) ∧
  ((∀ s, s.d.alive = true → s.d.fld PWR_BOOT_STATUS_PHASE = 7 → s.d.fld CFG_IMAGE_STATUS_STATE = 4 →
    s.d.eng.pwr.heldResets = [] → Does .cancel s fun e => Rejected s.d e ieCancelled 0xFFFF) ∧
  (∀ s, s.d.alive = true → s.d.fld CFG_IMAGE_STATUS_STATE ≠ 4 → Does .cancel s fun e =>
      e.fld CFG_IMAGE_COUNT_IGNORED_CTRL = min (s.d.fld CFG_IMAGE_COUNT_IGNORED_CTRL + 1) 0xFFFF ∧
      e.eng = s.d.eng ∧ e.mem = s.d.mem ∧ SameRegs s.d e (· = CFG_IMAGE_COUNT)) ∧
  (∀ s, s.d.alive = true → s.d.fld CFG_IMAGE_STATUS_STATE = 4 → s.d.fld CFG_OVERLAY_TIMEOUT_TCYCLES ≠ 0 →
    s.d.eng.pwr.heldResets = [] → Does .overlayTimeout s fun e => Rejected s.d e ieTimeout 0xFFFF))

/-- FETCH, VERIFY and VALIDATE: the bytes are kept; a header error rejects, otherwise the records are read; the first
error of the records rejects, a base that did not find the device quiet is rejected with BUSY, an accepted base goes to
PREPARE and an overlay waits for its scope (R34, R48, R49, R61, R68). PREPARE: once every line that a host cache held is
back, device memory is zero, every quire is idle and no host line is cached, and APPLY begins (R51, R52). -/
def Obligations.ImagesAreChecked : Prop :=
  ((∀ bs s, s.d.alive = true → s.d.fld CFG_IMAGE_STATUS_STATE = 1 → s.d.eng.img.op = 0 →
    Does (.imageFetched bs) s fun e => e.fld CFG_IMAGE_STATUS_STATE = 2 ∧
      e.eng.img.bytes = fit (min (s.d.fld CFG_IMAGE_LEN_LEN) 16777217) bs ∧ e.eng.cfg = s.d.eng.cfg ∧
      e.mem = s.d.mem ∧ SameRegs s.d e fun o => o = CFG_IMAGE_STATUS ∨ ringRegs o) ∧
  (∀ s, s.d.alive = true → s.d.fld CFG_IMAGE_STATUS_STATE = 2 → s.d.eng.img.op = 0 → s.d.eng.pwr.heldResets = [] →
    Does .imageVerified s fun e =>
      match s.d.headerError s.d.eng.img.bytes s.d.eng.img.bytes.length with
      | some err => Rejected s.d e err 0xFFFF
      | none => e.fld CFG_IMAGE_STATUS_STATE = 3 ∧ e.eng.cfg = s.d.eng.cfg ∧ e.mem = s.d.mem) ∧
  (∀ s, s.d.alive = true → s.d.fld CFG_IMAGE_STATUS_STATE = 3 → s.d.eng.pwr.heldResets = [] →
    Does .imageValidated s fun e =>
      match s.d.imageError s.d.eng.img.bytes s.d.eng.img.recs s.d.eng.img.scope with
      | some x => Rejected s.d e x.1 x.2
      | none =>
        if hKind s.d.eng.img.bytes = 0 ∧ s.d.eng.img.quietAtLoad = false then Rejected s.d e ieBusy 0xFFFF
        else e.fld CFG_IMAGE_STATUS_STATE = (if hKind s.d.eng.img.bytes = 0 then 5 else 4) ∧
          e.eng.cfg = s.d.eng.cfg ∧ SameMem s.d e)) ∧
  (∀ s, s.d.alive = true → s.d.fld CFG_IMAGE_STATUS_STATE = 5 → s.d.eng.axl.recalls = [] →
    Does .prepareDone s fun e => e.fld CFG_IMAGE_STATUS_STATE = 6 ∧ (∀ k, k < 2 ^ 46 → e.byte k = 0) ∧
      e.eng.quires = [] ∧ e.eng.poison = [] ∧ e.eng.axl.filter = [] ∧ e.eng.cfg = s.d.eng.cfg ∧
      SameRegs s.d e fun o => o = CFG_IMAGE_STATUS ∨ ringRegs o)

/-- A switch, whose scope has come to a quiesce point or has been reset while it waited, is applied at once; otherwise it
waits on. The end of an operation leaves STATE IDLE and counts the load; after a base load exactly the units of the image's
FENCE records, those that failed meanwhile, and the quires that these take with them are fenced, and no overlay is in force
(R53, R54, R58, R61, R95, R365). -/
def Obligations.ConfigurationTakesEffect : Prop :=
  (∀ s, s.d.alive = true → s.d.fld CFG_IMAGE_STATUS_STATE = 4 → s.d.eng.img.op ≠ 0 →
    ((∀ p, p < 64 → s.d.formed p = true → bit s.d.eng.img.scope p = true →
        s.d.quiesced p = true ∨ p ∈ s.d.eng.img.resetParts) →
      Does .overlayQuiesced s fun e => e.fld CFG_IMAGE_STATUS_STATE = 6 ∧
        e.eng.cfg = cfgAfter s.d.eng.cfg s.d.eng.img.op (if s.d.eng.img.op = 2 then 0 else hMode s.d.eng.img.bytes)
          s.d.eng.img.recs s.d.eng.img.scope) ∧
    (∀ p, p < 64 → s.d.formed p = true → bit s.d.eng.img.scope p = true → s.d.quiesced p = false →
      p ∉ s.d.eng.img.resetParts → exec .overlayQuiesced s = .next s)) ∧
  (∀ s, s.d.alive = true → s.d.fld CFG_IMAGE_STATUS_STATE = 6 → s.d.eng.img.op ≠ 3 → s.d.eng.pwr.heldResets = [] →
    Does .applyDone s fun e => e.fld CFG_IMAGE_STATUS_STATE = 0 ∧
      e.fld CFG_IMAGE_COUNT_LOADS =
        min (s.d.fld CFG_IMAGE_COUNT_LOADS + 1) (2 ^ CFG_IMAGE_COUNT_LOADS.wd - 1) ∧
      e.flag CFG_IMAGE_STATUS_FENCED_DURING_LOAD = (s.d.eng.img.newFences != []) ∧
      (s.d.eng.img.op = 0 → e.flag CFG_ACTIVE_IMAGE_LOADED = true ∧ e.eng.cfg.base = s.d.eng.img.recs ∧
        e.eng.cfg.modeOf = [] ∧ e.eng.cfg.mgr = [] ∧
        e.eng.cfg.fences = mergeArrays (allFences s.d.eng.img.recs ++ s.d.eng.img.newFences)))

/-- Microcode: a load on an idle loader is fetched unless it is too long, the device is not quiet, or it is sealed; its file
is verified, and either it is switched to, its digest shown and the load counted, or the running microcode with its digest
stays in place (R109, R116 to R119). A load while the Axoft Link is down ends with a digest error, the model's choice
(log 110). -/
def Obligations.MicrocodeSwitchesOrStays : Prop :=
  (∀ s, Idle s.d → s.d.eng.pwr.heldResets = [] → Does .ucodeLoad s fun e =>
      e.eng.cfg = s.d.eng.cfg ∧ SameMem s.d e ∧
      if 4194304 < s.d.fld CFG_UCODE_LEN_LEN then e.fld CFG_IMAGE_STATUS_STATE = 0 ∧ e.fld CFG_UCODE_STATUS_ERROR = 1
      else if s.d.quietForBase = false then e.fld CFG_IMAGE_STATUS_STATE = 0 ∧ e.fld CFG_UCODE_STATUS_ERROR = 4
      else if s.d.flag CFG_SEAL_STATUS_SEALED then e.fld CFG_IMAGE_STATUS_STATE = 0 ∧ e.fld CFG_UCODE_STATUS_ERROR = 5
      else if s.d.axlUp = false then e.fld CFG_IMAGE_STATUS_STATE = 0 ∧ e.fld CFG_UCODE_STATUS_ERROR = 2
      else e.fld CFG_IMAGE_STATUS_STATE = 1 ∧ e.eng.img.op = 3) ∧
  (∀ bs s, s.d.alive = true → s.d.fld CFG_IMAGE_STATUS_STATE = 1 → s.d.eng.img.op = 3 →
    Does (.ucodeFetched bs) s fun e => e.fld CFG_IMAGE_STATUS_STATE = 2 ∧
      e.eng.img.bytes = fit (s.d.fld CFG_UCODE_LEN_LEN) bs ∧ e.eng.cfg = s.d.eng.cfg ∧ e.mem = s.d.mem) ∧
  (∀ s, s.d.alive = true → s.d.fld CFG_IMAGE_STATUS_STATE = 2 → s.d.eng.img.op = 3 → s.d.eng.pwr.heldResets = [] →
    Does .ucodeSwitch s fun e => e.fld CFG_IMAGE_STATUS_STATE = 0 ∧
      e.fld CFG_UCODE_STATUS_ERROR = s.d.ucodeError s.d.eng.img.bytes ∧ e.eng.cfg = s.d.eng.cfg ∧ SameMem s.d e ∧
      if s.d.ucodeError s.d.eng.img.bytes = 0 then
        e.flag CFG_UCODE_STATUS_SOURCE = true ∧
        e.fld CFG_UCODE_STATUS_LOADS =
          min (s.d.fld CFG_UCODE_STATUS_LOADS + 1) (2 ^ CFG_UCODE_STATUS_LOADS.wd - 1) ∧
        ∀ i, i < 4 → e.reg (CFG_UCODE_DIGEST i) = BitVec.ofNat 64 (leAt (hConfigDigest s.d.eng.img.bytes) (8 * i) 8)
      else e.flag CFG_UCODE_STATUS_SOURCE = s.d.flag CFG_UCODE_STATUS_SOURCE ∧
        e.fld CFG_UCODE_STATUS_LOADS = s.d.fld CFG_UCODE_STATUS_LOADS ∧
        ∀ i, i < 4 → e.reg (CFG_UCODE_DIGEST i) = s.d.reg (CFG_UCODE_DIGEST i))

/-! ### Power and reset (03) -/

/-- The regulators start with RESET_N low and PWR_GOOD still low; PWR_GOOD rises once every rail is in regulation;
RESET_N rising samples the straps and starts the BIST phase; before PWR_GOOD, and in a power-fail stop, it only rises (R77,
R78, R80, R85, R92, R97). The supply fails: whatever ends regulation switches the regulators off, PWR_GOOD is low, the
alert is released and no task is left (R75, R76, R78, R83, R89, R580). -/
def Obligations.SupplyComesAndGoes : Prop :=
  ((∀ s, s.d.eng.pwr.regulators = false → s.d.eng.pwr.resetN = false → s.d.eng.pwr.stopping = false →
    Does .regulatorStart s fun e => e.eng.pwr.regulators = true ∧ e.eng.pwr.good = false ∧ e.eng.pwr.resetN = false ∧
      Cold s.d e) ∧
  (∀ s, s.d.eng.pwr.regulators = true → s.d.eng.pwr.good = false →
    Does .pwrGood s fun e => e = { s.d with eng := { s.d.eng with pwr := { s.d.eng.pwr with good := true } } }) ∧
  (∀ mgr feed slot s, s.d.eng.pwr.resetN = false →
    (s.d.eng.pwr.good = true → s.d.eng.pwr.stopping = false →
      Does (.resetRelease mgr feed slot) s fun e => e.eng.pwr.resetN = true ∧ e.eng.stamp = 0 ∧
        e.eng.pwr.straps = ⟨mgr, feed % 8, slot % 8⟩ ∧ e.fld PWR_BOOT_STATUS_PHASE = 1 ∧ e.mem = s.d.mem) ∧
    (s.d.eng.pwr.good = false ∨ s.d.eng.pwr.stopping = true → Does (.resetRelease mgr feed slot) s fun e =>
      e = { s.d with eng := { s.d.eng with pwr := { s.d.eng.pwr with resetN := true } } }))) ∧
  (∀ c ∈ [Instr.vinCollapse, .vinOvTrip, .auxRailFault, .pllLossOfLock, .stopRegulatorsOff], ∀ s,
    s.d.eng.pwr.regulators = true → (c = .stopRegulatorsOff → s.d.eng.pwr.stopping = true) →
    Does c s fun e => e.eng.pwr.regulators = false ∧ e.eng.pwr.good = false ∧ e.eng.pwr.stopping = false ∧
      e.eng.pwr.alert1 = false ∧ e.eng.tasks = [] ∧ e.eng.pwr.resetN = s.d.eng.pwr.resetN)

/-- An under-voltage warning or a thermal trip begins a power-fail stop: its flag is set, the alert is asserted and the
stop is in progress (R82, R83, R580). Warnings set their flag and count; PWR_VIN shows the supply as measured (R75, R86,
R96, R204). An idle array or vector engine of an active quire is gated under AUTO_GATE, and nothing else changes (R91).
-/
def Obligations.PowerIsWatched : Prop :=
  ((∀ s, s.d.eng.pwr.regulators = true → s.d.eng.pwr.stopping = false →
    Does .vinUvWarn s fun e => e.flag PWR_STATUS_UV_WARN = true ∧ e.eng.pwr.stopping = true ∧ e.eng.pwr.alert1 = true ∧
      SameMem s.d e) ∧
  (∀ sensor tj s, s.d.eng.pwr.regulators = true → s.d.eng.pwr.stopping = false → sensor < 40 →
      110 * 16 ≤ signed 16 tj →
    Does (.thermalTrip sensor tj) s fun e => e.flag PWR_STATUS_THERM_TRIP = true ∧ e.eng.pwr.stopping = true ∧
      e.eng.pwr.alert1 = true ∧ SameMem s.d e)) ∧
  ((∀ s, s.d.eng.pwr.regulators = true → Does .vinOvWarn s fun e => e.flag PWR_STATUS_OV_WARN = true ∧
      e.fld PWR_WARN_COUNT_OV = (s.d.fld PWR_WARN_COUNT_OV + 1) % 2 ^ 32 ∧ SameMem s.d e ∧
      SameRegs s.d e fun o => o = PWR_STATUS ∨ o = PWR_WARN_COUNT ∨ o = PWR_EVENT_COUNT ∨ postRegs o) ∧
  (∀ sensor tj s, s.d.eng.pwr.regulators = true → sensor < 40 → (s.d.fld PWR_THERM_WARN_DEG_C * 16 : Int) < signed 16 tj →
    Does (.thermWarn sensor tj) s fun e => e.flag PWR_STATUS_THERM_WARN = true ∧
      e.fld PWR_WARN_COUNT_THERM = (s.d.fld PWR_WARN_COUNT_THERM + 1) % 2 ^ 32 ∧ SameMem s.d e) ∧
  (∀ mv amp watt s, s.d.alive = true → Does (.pwrVinUpdate mv amp watt) s fun e =>
      e.fld PWR_VIN_VIN_MV = mv % 2 ^ 16 ∧ e.fld PWR_VIN_IIN_10MA = amp % 2 ^ 16 ∧ e.fld PWR_VIN_PIN_W = watt % 2 ^ 16 ∧
      e.eng = s.d.eng ∧ e.mem = s.d.mem ∧ SameRegs s.d e (· = PWR_VIN))) ∧
  ((∀ n a s, s.d.alive = true → s.d.flag PWR_GATE_CTRL_AUTO_GATE = true → s.d.quireActive n = true → a < 4 →
      (s.d.quire n).mtx.queue = [] → (s.d.quire n).mtx.loading = [] → (s.d.quire n).mtx.passes = [] →
      n * 4 + a ∉ s.d.eng.pwr.gatedArrays →
    Does (.autoGateArray n a) s fun e => e = { s.d with eng := { s.d.eng with pwr := { s.d.eng.pwr with
      gatedArrays := s.d.eng.pwr.gatedArrays ++ [n * 4 + a] } } }) ∧
  (∀ n s, s.d.alive = true → s.d.flag PWR_GATE_CTRL_AUTO_GATE = true → s.d.quireActive n = true →
      (s.d.quire n).vec.queue = [] → (s.d.quire n).vec.run = [] → n ∉ s.d.eng.pwr.gatedVecs →
    Does (.autoGateVector n) s fun e => e = { s.d with eng := { s.d.eng with pwr := { s.d.eng.pwr with
      gatedVecs := s.d.eng.pwr.gatedVecs ++ [n] } } }))

/-- A cold reset leaves every register at its reset value and the engines as after power-up, and memory to boot; during
a power-fail stop only RESET_N falls (R81, R85, R92, R95). A warm reset boots DEFAULT again from DUNE_TRAIN: the image and
every overlay are gone, the seal with them, the fences of BIST stay, memory is left to boot, and the counts of RES_COUNT_A,
RES_COUNT_B, CFG_BAD_ACCESS and of warm resets are kept (R33, R67, R92, R96, R97). -/
def Obligations.ResetsAct : Prop :=
  (∀ s, s.d.eng.pwr.resetN = true → s.d.eng.pwr.regulators = true →
    (s.d.eng.pwr.stopping = false → Does .coldReset s fun e => Cold s.d e ∧ e.eng.pwr.resetN = false ∧
      e.eng.quires = [] ∧ e.eng.tasks = [] ∧ e.eng.cfg = Cfg.default [] [] [] ∧ e.eng.recs = Eng.init.recs ∧
      e.eng.sec = Eng.init.sec) ∧
    (s.d.eng.pwr.stopping = true → Does .coldReset s fun e =>
      e = { s.d with eng := { s.d.eng with pwr := { s.d.eng.pwr with resetN := false } } })) ∧
  (∀ v s, s.d.eng.pwr.good = true → s.d.eng.pwr.resetN = true → field v 16 16 = 0x5741 → bit v 0 = true →
    Does (.warmReset v) s fun e =>
      e.fld PWR_BOOT_STATUS_PHASE = 2 ∧ e.flag PWR_BOOT_STATUS_WARM = true ∧
      e.fld PWR_EVENT_COUNT_WARM = min (s.d.fld PWR_EVENT_COUNT_WARM + 1) 0xFFFF ∧
      SameMem s.d e ∧ e.eng.tasks = [] ∧ e.eng.quires = [] ∧
      e.eng.cfg = Cfg.default s.d.eng.cfg.bistFences s.d.eng.cfg.narrowed s.d.eng.cfg.waysOff ∧
      e.reg RES_COUNT_A = s.d.reg RES_COUNT_A ∧ e.reg RES_COUNT_B = s.d.reg RES_COUNT_B ∧
      e.reg CFG_BAD_ACCESS = s.d.reg CFG_BAD_ACCESS ∧ e.flag CFG_SEAL_STATUS_SEALED = false)

/-- A partition reset of formed partitions that are not under reset already marks them busy and removes their tasks at
once, unless an image operation holds it; once every line of the partition that a host cache held is back, it ends with the
partition's memory zero, and no other changed (R92, R95, R146, R484). -/
def Obligations.PartitionResetRuns : Prop :=
  (∀ mask s, s.d.alive = true → Does (.partitionReset mask) s fun e =>
      (∀ p, p < 64 → bit (e.fld PWR_RESET_BUSY_PARTS) p =
        (bit (s.d.fld PWR_RESET_BUSY_PARTS) p || (s.d.formed p && bit mask p))) ∧
      (∀ p, p < 64 → s.d.formed p = true → bit mask p = true → bit (s.d.fld PWR_RESET_BUSY_PARTS) p = false →
        if s.d.fld CFG_IMAGE_STATUS_STATE = 0 ∨ s.d.fld CFG_IMAGE_STATUS_STATE = 4 then ∀ t ∈ e.eng.tasks, t.part ≠ p
        else p ∈ e.eng.pwr.heldResets) ∧
      e.eng.cfg = s.d.eng.cfg) ∧
  (∀ p s, s.d.alive = true → p < 64 → bit (s.d.fld PWR_RESET_BUSY_PARTS) p = true → p ∉ s.d.eng.pwr.heldResets →
      (∀ r ∈ s.d.eng.axl.recalls, keyPart r.line ≠ p) → Does (.partitionResetDone p) s fun e =>
      e.fld PWR_RESET_BUSY_PARTS = s.d.fld PWR_RESET_BUSY_PARTS - 2 ^ p ∧ (∀ o, o < 2 ^ 40 → e.byte (memKey p o) = 0) ∧
      (∀ q o, q < 64 → q ≠ p → o < 2 ^ 40 → e.byte (memKey q o) = s.d.byte (memKey q o)) ∧
      SameRegs s.d e (· = PWR_RESET_BUSY))

/-! ### Boot (04) -/

/-- BIST fences the units that fail, a quire in place of arrays too many of it, and ends in DUNE_TRAIN unless a result is
fatal or no quire is left; DUNE_TRAIN ends in PUF unless no channel is
left; a fatal result leaves PHASE FAILED with its code (R97 to R99, R103, R106, R365). The PUF phase derives the identity or
notes its failure and goes on to AXL_TRAIN; the DEFAULT phase zeroes memory; the end of the FABRIC phase is READY where
the Axoft Link has trained (R97, R100, R101, R107, R610). -/
def Obligations.BootPhasesRun : Prop :=
  ((∀ fences narrow ways engines fatal s, s.d.alive = true → s.d.fld PWR_BOOT_STATUS_PHASE = 1 →
    Does (.bist fences narrow ways engines fatal) s fun e =>
      (∀ u ∈ mergeArrays (fences.filter fun u => unitIdOk u && u != 0), e.fenced u = true) ∧ SameMem s.d e ∧
      if fatal ∈ [1, 2, 3, 6] then e.fld PWR_BOOT_STATUS_PHASE = 15 ∧ e.fld PWR_BOOT_STATUS_FAIL_CODE = fatal
      else if (List.range 1536).all e.quireFenced then
        e.fld PWR_BOOT_STATUS_PHASE = 15 ∧ e.fld PWR_BOOT_STATUS_FAIL_CODE = 4
      else e.fld PWR_BOOT_STATUS_PHASE = 2) ∧
  (∀ chans bases s, s.d.alive = true → s.d.fld PWR_BOOT_STATUS_PHASE = 2 →
    Does (.duneTrain chans bases) s fun e =>
      (∀ c ∈ chans, c < 512 → e.chanFenced c = true) ∧
      (∀ b ∈ bases, b < 32 → ∀ k, k < 16 → e.chanFenced (b * 16 + k) = true) ∧ SameMem s.d e ∧
      if (List.range 512).all e.chanFenced then
        e.fld PWR_BOOT_STATUS_PHASE = 15 ∧ e.fld PWR_BOOT_STATUS_FAIL_CODE = 5
      else e.fld PWR_BOOT_STATUS_PHASE = 3)) ∧
  ((∀ ok s, s.d.alive = true → s.d.fld PWR_BOOT_STATUS_PHASE = 3 → Does (.puf ok) s fun e =>
      e.fld PWR_BOOT_STATUS_PHASE = 4 ∧ e.fld AXL_STATUS_STATE = 1 ∧ e.mem = s.d.mem ∧ e.eng = s.d.eng ∧
      (if ok then e.flag SEC_STATUS_IDENTITY = true else e.flag PWR_BOOT_STATUS_PUF_FAILED = true)) ∧
  (∀ s, s.d.alive = true → s.d.fld PWR_BOOT_STATUS_PHASE = 5 → Does .defaultPhaseDone s fun e =>
      e.fld PWR_BOOT_STATUS_PHASE = 6 ∧ (∀ k, k < 2 ^ 46 → e.byte k = 0) ∧
      e.fld CFG_DEFAULT_MEM_BYTES = e.presented 0 % 2 ^ 48) ∧
  (∀ s, s.d.alive = true → s.d.fld PWR_BOOT_STATUS_PHASE = 6 → s.d.eng.pwr.fabricEnded = false →
    Does .fabricPhaseEnd s fun e => e.eng.pwr.fabricEnded = true ∧ e.mem = s.d.mem ∧
      e.fld PWR_BOOT_STATUS_PHASE = (if s.d.axlUp then 7 else 6)))

/-! ### The Axoft Link (05) -/

/-- Training that passes makes the link ACTIVE with the width, the credits and the address ranges agreed; one that fails
does not. At boot either ends the AXL_TRAIN phase; a further attempt starts while the link is down (R100, R125, R135, R147,
R168). The loss of the link is counted and leaves it LOST with no lane in use; where no request of the device was outstanding
and none waited at a home, nothing is held, waits or is recalled, the host-holder directory and the snoop filter are empty,
and every device line that the host held in E is poisoned (R165). A request that is not answered in time is counted, and
its TAG is retired; the end of a moderation period sends the EVT that is due, or frees the ring's EVT (R159, R164). -/
def Obligations.AxoftLinkComesAndGoes : Prop :=
  ((∀ ok good rev req snp rsp dat regBase memBase s, s.d.alive = true → s.d.fld AXL_STATUS_STATE = 1 →
    Does (.axlTrainingDone ok good rev req snp rsp dat regBase memBase) s fun e =>
      e.mem = s.d.mem ∧
      (s.d.fld PWR_BOOT_STATUS_PHASE = 4 → e.fld PWR_BOOT_STATUS_PHASE = 5) ∧
      if ok = true ∧ (laneGroup good).1 ≠ 0 ∧ 64 ≤ req ∧ 64 ≤ snp ∧ 64 ≤ rsp ∧ 64 ≤ dat then
        e.fld AXL_STATUS_STATE = 2 ∧ e.fld AXL_STATUS_WIDTH = (laneGroup good).1 ∧
        e.fld AXL_REG_BAR_BASE = regBase % 2 ^ 64 ∧ e.fld AXL_MEM_BAR_BASE = memBase % 2 ^ 64 ∧
        e.eng.axl = { s.d.eng.axl.anew with rx := Credits.own, crReq := req, crSnp := snp, crRsp := rsp, crDat := dat } ∧
        e.fld AXL_STATUS_EPOCH = (s.d.fld AXL_STATUS_EPOCH + 1) % 65536
      else e.fld AXL_STATUS_STATE ≠ 2 ∧ e.eng.axl = s.d.eng.axl) ∧
  (∀ s, s.d.alive = true → s.d.axlUp = false → 4 ≤ s.d.fld PWR_BOOT_STATUS_PHASE →
    Does .axlRetrain s fun e => e.fld AXL_STATUS_STATE = 1 ∧ e.eng = s.d.eng ∧ e.mem = s.d.mem ∧
      SameRegs s.d e fun o => o = AXL_STATUS ∨ ringRegs o)) ∧
  (∀ s, s.d.alive = true → s.d.axlUp = true → Does .axlLinkLoss s fun e =>
      e.fld AXL_STATUS_STATE = 3 ∧ e.fld AXL_STATUS_WIDTH = 0 ∧ e.fld AXL_LANES_USED = 0 ∧
      e.fld AXL_LINK_COUNT_LOSSES = min (s.d.fld AXL_LINK_COUNT_LOSSES + 1) (2 ^ AXL_LINK_COUNT_LOSSES.wd - 1) ∧
      (s.d.eng.axl.reqs = [] → s.d.eng.axl.reqWait = [] → s.d.eng.axl.home = [] →
        e.eng.axl.dir = [] ∧ e.eng.axl.filter = [] ∧ e.eng.axl.held = [] ∧ e.eng.axl.wait = [] ∧ e.eng.axl.reqs = [] ∧
        e.eng.axl.reqWait = [] ∧ e.eng.axl.recalls = [] ∧ e.eng.axl.home = [] ∧ e.eng.axl.inq = [] ∧ SameMem s.d e ∧
        ∀ k, (k, Holder.exclusive) ∈ s.d.eng.axl.dir → k ∈ e.eng.poison)) ∧
  ((∀ tag r s, s.d.alive = true → s.d.axlUp = true → s.d.request tag = some r → Does (.axlReqTimeout tag) s fun e =>
      tag ∈ e.eng.axl.retired ∧
      e.fld AXL_CONTAIN_COUNT_TIMEOUTS =
        min (s.d.fld AXL_CONTAIN_COUNT_TIMEOUTS + 1) (2 ^ AXL_CONTAIN_COUNT_TIMEOUTS.wd - 1)) ∧
  (∀ q s, s.d.alive = true → q ∈ s.d.eng.axl.evtBusy →
    (q ∈ s.d.eng.axl.evtDue → s.d.eng.pwr.stopping = false → Does (.evtModerationExpiry q) s fun e =>
      e.eng.axl.evtDue = s.d.eng.axl.evtDue.erase q ∧ e.regs = s.d.regs ∧ e.mem = s.d.mem ∧
      e.hasSent { Msg.mk0 opEvt with part := (s.d.queuePart q).getD 0, arg := s.d.fld (QUE_CFG_VECTOR q) }) ∧
    (q ∉ s.d.eng.axl.evtDue → Does (.evtModerationExpiry q) s fun e =>
      e = { s.d with eng := { s.d.eng with axl := { s.d.eng.axl with evtBusy := s.d.eng.axl.evtBusy.erase q } } })))

/-- A flit with a codeword that cannot be corrected, with a CRC that does not match, or ahead of its turn leaves a NAK to be
sent; a duplicate is discarded; one in sequence is accepted, with its ACK and its credits; a flit without a number only
returns those. Corrected codewords are counted (R127 to R130). A NAK releases the flits before the one it names and replays
those held from it on; a flit sent 8 times loses the link (R131, R132). -/
def Obligations.AxoftFlits : Prop :=
  (∀ body errs seq ack ty req snp rsp dat s, s.d.alive = true → s.d.axlUp = true →
    let bytes := flitOf seq ack ty req snp rsp dat body
    let h := flitHead bytes
    let good := fecDecodes errs = true ∧ flitGood bytes = true
    let numbered := h.ty = 1 ∨ h.ty = 3
    let a := s.d.eng.axl
    Does (.axlFlit body errs seq ack ty req snp rsp dat) s fun e => e.mem = s.d.mem ∧ SameRegs s.d e (· = AXL_LINK_COUNT) ∧
      e.fld AXL_LINK_COUNT_FEC_CORRECTED = min (s.d.fld AXL_LINK_COUNT_FEC_CORRECTED + fecCorrected errs)
        (2 ^ AXL_LINK_COUNT_FEC_CORRECTED.wd - 1) ∧
      (¬ good ∨ (numbered ∧ h.seq ≠ a.seqRx ∧ seqLe12 (h.seq + 1) a.seqRx = false) →
        e.eng.axl.nak.isSome = true ∧ e.eng.axl.seqRx = a.seqRx ∧ e.eng.axl.held = a.held) ∧
      (good → numbered → h.seq ≠ a.seqRx → seqLe12 (h.seq + 1) a.seqRx = true →
        e.eng = { s.d.eng with axl := { a with dupFlits := a.dupFlits + 1 } }) ∧
      (good → (numbered → h.seq = a.seqRx) →
        (numbered → e.eng.axl.nak = none) ∧
        e.eng.axl.seqRx = (if h.ty = 1 ∨ h.ty = 3 then (a.seqRx + 1) % 4096 else a.seqRx) ∧ e.eng.axl.ack = h.ack ∧
        (∀ x ∈ a.held, seqLe12 x.seq h.ack = false → x ∈ e.eng.axl.held) ∧
        (a.wait = [] → e.eng.axl.crReq = min (s.d.fld AXL_PEER_CREDITS_REQ) (a.crReq + h.cr.req) ∧
          e.eng.axl.crSnp = min (s.d.fld AXL_PEER_CREDITS_SNP) (a.crSnp + h.cr.snp) ∧
          e.eng.axl.crRsp = min (s.d.fld AXL_PEER_CREDITS_RSP) (a.crRsp + h.cr.rsp) ∧
          e.eng.axl.crDat = min (s.d.fld AXL_PEER_CREDITS_DAT) (a.crDat + h.cr.dat)))) ∧
  (∀ seq s, s.d.alive = true → s.d.axlUp = true →
    let stay := s.d.eng.axl.held.filter fun h => !seqLe12 h.seq ((seq + 4095) % 4096)
    Does (.axlNak seq) s fun e =>
      e.fld AXL_LINK_COUNT_REPLAYS = min (s.d.fld AXL_LINK_COUNT_REPLAYS + 1) (2 ^ AXL_LINK_COUNT_REPLAYS.wd - 1) ∧
      ((∀ h ∈ stay, h.sends + 1 < 8) →
        e.eng.axl.held = stay.map (fun h => { h with sends := h.sends + 1 }) ∧ e.mem = s.d.mem) ∧
      ((∃ h ∈ stay, 8 ≤ h.sends + 1) → e.fld AXL_STATUS_STATE = 3))

/-- A host read of presented memory at a home that is free answers DATA with the line's bytes; RD_SHARED and RD_OWN make
the host a holder of the line, RD_UC does not; none of them changes memory (R134, R138, R139, R147, R148). A host write
of presented memory at a home that is free stores its bytes and no others, and is answered CMP; an atomic add of 8 bytes
stores the sum and answers the old bytes (R134, R138, R147, R163). -/
def Obligations.HostReadsAndWritesMemory : Prop :=
  (∀ tag addr p o s, HostReaches s.d addr p o → s.d.lineBusy (lineKey p o) = false → s.d.victim (lineKey p o) = none →
    (Does (.rdShared tag addr .clean) s fun e => SameMem s.d e ∧ e.hostHolds (lineKey p o) = some .shared ∧
      e.hasSent { Msg.mk0 opData with tag := tag % 16384, addr := addr, len := 64
                                      data := s.d.viewBytes p none (o / 64 * 64) 64
                                      poison := s.d.poisoned p none (o / 64 * 64) 64 }) ∧
    (Does (.rdOwn tag addr .clean) s fun e => SameMem s.d e ∧ e.hostHolds (lineKey p o) = some .exclusive ∧
      (∀ x ∈ e.eng.dune.folios, x.key = lineKey p o → x.view ≠ none) ∧
      e.hasSent { Msg.mk0 opData with tag := tag % 16384, addr := addr, len := 64
                                      data := s.d.viewBytes p none (o / 64 * 64) 64
                                      poison := s.d.poisoned p none (o / 64 * 64) 64 }) ∧
    ∀ n, 1 ≤ n → o % 64 + n ≤ 64 → s.d.inMemory p o n = true →
      Does (.rdUc tag addr n .clean) s fun e => SameMem s.d e ∧ e.eng.axl.dir = s.d.eng.axl.dir ∧
        e.hasSent { Msg.mk0 opData with tag := tag % 16384, addr := addr, len := n
                                        data := s.d.viewBytes p none o n, poison := s.d.poisoned p none o n }) ∧
  (∀ tag addr p o s, HostReaches s.d addr p o → s.d.lineBusy (lineKey p o) = false → s.d.chanFenced (s.d.chanOf p o) = false →
    (∀ data, data.length = 64 → Does (.wrLine tag addr data false) s fun e =>
      MemHolds e (memKey p (o / 64 * 64)) data ∧ SameMemBut s.d e (memKey p (o / 64 * 64)) 64 ∧
      e.hasSent { Msg.mk0 opCmp with tag := tag % 16384, addr := addr }) ∧
    (∀ n data, data.length = n → 1 ≤ n → o % 64 + n ≤ 64 → s.d.inMemory p o n = true →
      Does (.wrPart tag addr n data false .clean) s fun e =>
        MemHolds e (memKey p o) data ∧ SameMemBut s.d e (memKey p o) n ∧
        e.hasSent { Msg.mk0 opCmp with tag := tag % 16384, addr := addr }) ∧
    (∀ operand compare, o % 8 = 0 → s.d.poisoned p none o 8 = false →
      Does (.atomic tag addr 1 operand compare .clean) s fun e =>
        MemHolds e (memKey p o) (leBytes 8 ((leNat (s.d.bytes (memKey p o) 8) + operand) % 2 ^ 64)) ∧
        SameMemBut s.d e (memKey p o) 8 ∧
        e.hasSent { Msg.mk0 opData with tag := tag % 16384, addr := addr, len := 8, data := s.d.bytes (memKey p o) 8 }))

/-- What the host gives back: an evicted or snooped line that it held in E goes home byte for byte, a clean eviction or an
ACK_I ends its holding, or leaves it to an eviction in flight; an ACK_S leaves it shared, and a SNP_INV that is owed behind it
stands; SNP_INV of the host empties the folio caches of the line (R141 to R146). -/
def Obligations.HostGivesLinesBack : Prop :=
  (∀ tag addr p o s, HostServed s.d addr p o → (∀ r ∈ s.d.eng.axl.recalls, r.answered = false) →
    (∀ data, data.length = 64 → s.d.hostHolds (lineKey p o) = some .exclusive → s.d.chanFenced (s.d.chanOf p o) = false →
      Does (.evictDirty tag addr data false) s fun e => MemHolds e (memKey p (o / 64 * 64)) data ∧
        SameMemBut s.d e (memKey p (o / 64 * 64)) 64 ∧ e.hostHolds (lineKey p o) = none ∧
        e.hasSent { Msg.mk0 opCmp with tag := tag % 16384, addr := addr }) ∧
    Does (.evictClean tag addr) s fun e => e.hostHolds (lineKey p o) = none ∧ e.mem = s.d.mem ∧ e.regs = s.d.regs ∧
      e.hasSent { Msg.mk0 opCmp with tag := tag % 16384, addr := addr }) ∧
  (∀ tag addr p o r s, s.d.alive = true → s.d.axlUp = true → s.d.answered tag addr = some (p, o, r) →
    (∀ data, data.length = 64 → s.d.hostHolds (lineKey p o) = some .exclusive → s.d.chanFenced (s.d.chanOf p o) = false →
      Does (.dataM ⟨tag, addr⟩ data false) s fun e => MemHolds e (memKey p (o / 64 * 64)) data ∧
        SameMemBut s.d e (memKey p (o / 64 * 64)) 64) ∧
    (s.d.hostHolds (lineKey p o) ≠ none → Does (.ackI ⟨tag, addr, true⟩) s fun e =>
      (∃ x ∈ e.eng.axl.recalls, x.line = lineKey p o ∧ x.answered = true) ∧
      e.hostHolds (lineKey p o) = s.d.hostHolds (lineKey p o) ∧ e.mem = s.d.mem ∧ e.regs = s.d.regs) ∧
    (s.d.eng.axl.home = [] → s.d.eng.axl.inq = [] →
      (Does (.ackI ⟨tag, addr, false⟩) s fun e => (∀ x ∈ e.eng.axl.recalls, x.line ≠ lineKey p o) ∧
        e.hostHolds (lineKey p o) = none ∧ e.mem = s.d.mem ∧ (s.d.eng.dune.mirrors = [] → e.regs = s.d.regs)) ∧
      (r.inv = false → r.due = false → Does (.ackS ⟨tag, addr⟩) s fun e => (∀ x ∈ e.eng.axl.recalls, x.line ≠ lineKey p o) ∧
        e.hostHolds (lineKey p o) = (s.d.hostHolds (lineKey p o)).map (fun _ => .shared) ∧ e.mem = s.d.mem ∧
        (s.d.eng.dune.mirrors = [] → e.regs = s.d.regs))) ∧
    (r.inv = false → r.due = true → Does (.ackS ⟨tag, addr⟩) s fun e =>
      (∃ x ∈ e.eng.axl.recalls, x.line = lineKey p o ∧ x.inv = true) ∧
      e.hostHolds (lineKey p o) = (s.d.hostHolds (lineKey p o)).map (fun _ => .shared) ∧ e.mem = s.d.mem ∧
      e.regs = s.d.regs)) ∧
  (∀ tag addr s, s.d.alive = true → s.d.axlUp = true → Does (.snpInv tag addr) s fun e =>
      (∀ h ∈ e.eng.axl.filter, h.line ≠ addr / 64) ∧ e.mem = s.d.mem ∧ e.regs = s.d.regs ∧
      e.hasSent { Msg.mk0 opAckI with tag := tag % 16384, addr := addr % 2 ^ 64 })

/-- What the host answers: a CMP ends a write and frees its TAG; a CMP of an accepted record sends its ring's EVT; DATA
brings a demand access its line; an answer to no request is discarded and counted (R137, R159, R164). -/
def Obligations.HostAnswers : Prop :=
  (∀ tag status r task s, s.d.alive = true → s.d.axlUp = true → s.d.request tag = some r → r.why = .write task →
      s.d.eng.axl.reqWait = [] →
    Does (.cmp tag status) s fun e => e.eng.axl.reqs = s.d.eng.axl.reqs.filter (fun x => x.tag != r.tag) ∧
      e.mem = s.d.mem ∧ e.regs = s.d.regs) ∧
  (∀ tag status r q s, s.d.alive = true → s.d.axlUp = true → s.d.request tag = some r → r.why = .record q →
      s.d.fld AXL_EVT_MOD_TCYCLES = 0 → s.d.eng.pwr.stopping = false →
    Does (.cmp tag status) s fun e => e.mem = s.d.mem ∧ e.regs = s.d.regs ∧ e.hasSent { Msg.mk0 opEvt with
      part := (s.d.queuePart q).getD 0, arg := s.d.fld (QUE_CFG_VECTOR q) }) ∧
  (∀ tag data r id w s, s.d.alive = true → s.d.axlUp = true → s.d.request tag = some r → r.why = .line id →
      s.d.eng.memWaits.find? (fun w => w.id == id) = some w →
    Does (.data tag data false) s fun e => e.mem = s.d.mem ∧ e.eng.memWaits = s.d.eng.memWaits.map fun x =>
      if x.id == id then { x with
        got := x.got ++ (List.range 64).map (fun i => (r.addr / 64 * 64 + i, data.getD i 0))
        want := x.want.erase ⟨true, r.addr / 64⟩ } else x) ∧
  (∀ tag data s, s.d.alive = true → s.d.axlUp = true → s.d.request tag = none → Does (.data tag data false) s fun e =>
      e.eng = { s.d.eng with axl := (s.d.eng.axl.took 3).freed 3 } ∧ e.mem = s.d.mem ∧
      SameRegs s.d e (· = AXL_CONTAIN_COUNT) ∧
      e.fld AXL_CONTAIN_COUNT_TIMEOUTS =
        min (s.d.fld AXL_CONTAIN_COUNT_TIMEOUTS + 1) (2 ^ AXL_CONTAIN_COUNT_TIMEOUTS.wd - 1))

/-! ### Rings, tallies and tasks (06) -/

/-- The numbers that tasks, accesses and requests carry are never given out twice: an invariant of every step. -/
def Obligations.StepKeepsNumbersFresh : Prop :=
  ∀ s t : State, NumbersFresh s.d → step s = .next t → NumbersFresh t.d

/-- A doorbell within the free slots of an enabled submission, copy or fabric-send ring moves TAIL; one beyond them, or
on a disabled ring, is a ring error that leaves TAIL (R176 to R178). A head write of a completion or event ring releases
slots; one that passes TAIL is a ring error (R176, R179). Enabling a ring of a good size in memory that its partition
may reach sets HEAD and TAIL to 0; a size out of range is refused; disabling keeps both; a descriptor read that is refused,
finds poison or is not answered in time disables the ring with an error (R175, R180, R674). -/
def Obligations.RingsTakeWork : Prop :=
  (∀ q p tail s, s.d.alive = true → s.d.queuePart q = some p → p < 64 → s.d.pageOpen p = true → s.d.queueKind q ∈ [1, 3, 4] →
    (s.d.ringEnabled q = true → tail < s.d.ringSize q → s.d.ringSize q ≤ 65536 →
      (tail + s.d.ringSize q - s.d.fld (QUE_TAIL_TAIL q)) % s.d.ringSize q + s.d.ringPending q + 1 ≤ s.d.ringSize q →
      Does (.doorbell q tail) s fun e => e.fld (QUE_TAIL_TAIL q) = tail ∧ e.eng = s.d.eng ∧ e.mem = s.d.mem ∧
        SameRegs s.d e (· = QUE_TAIL q)) ∧
    (s.d.ringEnabled q = false ∨ s.d.ringSize q ≤ tail ∨ s.d.ringSize q <
        (tail + s.d.ringSize q - s.d.fld (QUE_TAIL_TAIL q)) % s.d.ringSize q + s.d.ringPending q + 1 →
      Does (.doorbell q tail) s fun e => e.fld (QUE_TAIL_TAIL q) = s.d.fld (QUE_TAIL_TAIL q) ∧
        e.flag (QUE_STATUS_ERROR q) = true ∧
        e.fld (QUE_STATUS_ERROR_CODE q) = (if s.d.ringEnabled q then qeBadDoorbell else qeNotEnabled) ∧
        e.flag (PART_STATUS_QUEUE_ERROR p) = true ∧ e.eng = { s.d.eng with tcyc := e.eng.tcyc } ∧ e.mem = s.d.mem ∧
        SameRegs s.d e fun o => o = QUE_STATUS q ∨ o = PART_STATUS p ∨ o = PART_ERROR_COUNT p)) ∧
  (∀ q p head s, s.d.alive = true → s.d.queuePart q = some p → p < 64 → s.d.pageOpen p = true → s.d.queueKind q ∈ [2, 5] →
    (head < s.d.ringSize q → s.d.ringSize q ≤ 65536 →
      (head + s.d.ringSize q - s.d.fld (QUE_HEAD_HEAD q)) % s.d.ringSize q ≤ s.d.ringPending q →
      Does (.headWrite q head) s fun e => e.fld (QUE_HEAD_HEAD q) = head ∧ SameMem s.d e) ∧
    (s.d.ringSize q ≤ head ∨ s.d.ringPending q <
        (head + s.d.ringSize q - s.d.fld (QUE_HEAD_HEAD q)) % s.d.ringSize q → Does (.headWrite q head) s fun e =>
      e.fld (QUE_HEAD_HEAD q) = s.d.fld (QUE_HEAD_HEAD q) ∧ e.fld (QUE_STATUS_ERROR_CODE q) = qeBadHead ∧
      e.mem = s.d.mem)) ∧
  (∀ q p s, s.d.alive = true → s.d.queuePart q = some p → s.d.pageOpen p = true →
    (s.d.ringEnabled q = false → 4 ≤ s.d.fld (QUE_CFG_LOG2_SIZE q) → s.d.fld (QUE_CFG_LOG2_SIZE q) ≤ 16 →
      (if s.d.flag (QUE_BASE_LOC q) then s.d.queueKind q ∈ [1, 3, 4] ∧
          s.d.inMemory p (s.d.fld (QUE_BASE_BASE q) * 4096) (64 * 2 ^ s.d.fld (QUE_CFG_LOG2_SIZE q)) = true
        else s.d.hostPermit p (s.d.fld (QUE_BASE_BASE q) * 4096) (64 * 2 ^ s.d.fld (QUE_CFG_LOG2_SIZE q))
          (s.d.queueKind q == 2 || s.d.queueKind q == 5) = true) →
      q ≠ s.d.hostRing →
      Does (.ringEnable q) s fun e => e.ringEnabled q = true ∧ e.fld (QUE_HEAD_HEAD q) = 0 ∧ e.fld (QUE_TAIL_TAIL q) = 0 ∧
        e.ring q = Ring.empty ∧ e.mem = s.d.mem ∧
        SameRegs s.d e fun o => o = QUE_CFG q ∨ o = QUE_HEAD q ∨ o = QUE_TAIL q) ∧
    (s.d.ringEnabled q = false → s.d.fld (QUE_CFG_LOG2_SIZE q) < 4 ∨ 16 < s.d.fld (QUE_CFG_LOG2_SIZE q) →
      Does (.ringEnable q) s fun e => e.ringEnabled q = false ∧
        e.fld (QUE_STATUS_ERROR_CODE q) = qeConfigWhileEnabled ∧ e.mem = s.d.mem) ∧
    (s.d.ringEnabled q = true →
      Does (.ringDisable q) s fun e => e.ringEnabled q = false ∧
        e.fld (QUE_HEAD_HEAD q) = s.d.fld (QUE_HEAD_HEAD q) ∧ e.fld (QUE_TAIL_TAIL q) = s.d.fld (QUE_TAIL_TAIL q) ∧
        e.mem = s.d.mem) ∧
    (∀ timeout, s.d.ringEnabled q = true → s.d.queueKind q ∈ [1, 3, 4] → s.d.ringPending q ≠ 0 →
      (s.d.ring q).desc = none → s.d.flag (QUE_BASE_LOC q) = false ∨ s.d.descriptor p q [] = none →
      Does (.ringAccessFault ⟨q, timeout⟩) s fun e => e.ringEnabled q = false ∧ e.fld (QUE_STATUS_ERROR_CODE q) = qeRingAccess ∧
        e.mem = s.d.mem))

/-- STOP is stored where the partition is not under reset; software sets, adds to and clears a tally of a partition; SET
and ADD count as updates and work modulo 2^32, a SET before the ADDs of its tcycle; FAULTED is cleared unless hardware set it
in the same tcycle (R192, R198, R199, R203, R204, R209). A wait for a target is satisfied where the
value, as a half-range difference, has reached it: an update wakes a waiting thread of the partition whose target it
reaches, and only then (R198, R201). -/
def Obligations.TalliesAndStop : Prop :=
  ((∀ p v s, s.d.alive = true → p < 64 → s.d.pageOpen p = true → Does (.partitionStop p v) s fun e =>
      e.fld (PART_CTRL_STOP p) = v % 2 ∧ e.eng = s.d.eng ∧ e.mem = s.d.mem ∧ SameRegs s.d e (· = PART_CTRL p)) ∧
  (∀ t p v s, s.d.alive = true → s.d.tallyPart t = some p → t < 16384 → s.d.pageOpen p = true →
    (Does (.tallySet t v) s fun e => e.fld (TLY_VALUE_VALUE t) = (v + s.d.added t) % 2 ^ 32 ∧
      e.fld (TLY_COUNT_UPDATES t) = (s.d.fld (TLY_COUNT_UPDATES t) + 1) % 2 ^ 32 ∧ SameMem s.d e) ∧
    (Does (.tallyAddHost t v) s fun e =>
      e.fld (TLY_VALUE_VALUE t) = (s.d.fld (TLY_VALUE_VALUE t) + v) % 2 ^ 32 ∧
      e.fld (TLY_COUNT_UPDATES t) = (s.d.fld (TLY_COUNT_UPDATES t) + 1) % 2 ^ 32 ∧ SameMem s.d e) ∧
    (Does (.tallyClearFaulted t) s fun e =>
      e.flag (TLY_VALUE_FAULTED t) = (bit (s.d.raisedBits (TLY_VALUE t)) 32 && s.d.flag (TLY_VALUE_FAULTED t)) ∧
      e.fld (TLY_VALUE_VALUE t) = s.d.fld (TLY_VALUE_VALUE t) ∧ e.eng = s.d.eng ∧ e.mem = s.d.mem ∧
      SameRegs s.d e (· = TLY_VALUE t)))) ∧
  (∀ t p v s n c l target dst, s.d.alive = true → s.d.tallyPart t = some p → t < 16384 → s.d.pageOpen p = true →
    target < 2 ^ 32 → s.d.flag (TLY_VALUE_FAULTED t) = false → c ∈ (s.d.quire n).caravans → c.stopping = false → l < 32 →
    c.thread l = .waitTally t target dst → (∀ x ∈ (s.d.quire n).caravans, x.slot = c.slot → x = c) →
    Does (.tallySet t v) s fun e => ∃ x, e.caravan n c.slot = some x ∧
      if ((v + s.d.added t) % 2 ^ 32 + 2 ^ 32 - target) % 2 ^ 32 < 2 ^ 31 then x.thread l = .active ∧ x.pc l = c.pc l + 8
      else x.thread l = .waitTally t target dst ∧ x.pc l = c.pc l)

/-- A descriptor that can start takes its slot and makes a task: a MARKER ends at once with OK, a KERNEL reads its header, and
a COPY moves its bytes within the partition's memory (R176, R183, R184, R193, R251, R252). -/
def Obligations.TasksStart : Prop :=
  ∀ q p fromHost b s, Starts s.d p q fromHost b → dProof b = false →
    (dKind b = kdMarker → Does (.marker q fromHost) s fun e => SlotTaken s.d e q ∧ e.mem = s.d.mem ∧
      ∃ t, s.d.started e b t ∧ t.ended = true ∧ t.status = stOk) ∧
    (dKind b = kdKernel → s.d.hostBusy p (dArg b 0) 64 = [] → Does (.kernel q fromHost) s fun e =>
      SlotTaken s.d e q ∧ SameMem s.d e ∧ ∃ t, s.d.started e b t ∧
        if badHeader s.d p (dArg b 0) (s.d.bytes (memKey p (dArg b 0)) 64) then
          t.ended = true ∧ t.status = stFault ∧ t.fkind = fkBadHeader
        else if s.d.poisoned p none (dArg b 0) 64 then t.status = stFault ∧ t.fkind = fkPoison
        else t.ended = false ∧ t.header = s.d.bytes (memKey p (dArg b 0)) 64) ∧
    (∀ src dst, dKind b = kdCopy → s.d.place p (dArg b 0) (dArg b 2) false = .mem src →
      s.d.place p (dArg b 1) (dArg b 2) true = .mem dst → overlaps src dst (dArg b 2) = false →
      s.d.hostBusy p src (dArg b 2) = [] → FreeLines s.d p dst (dArg b 2) →
      Does (.copyTask q fromHost) s fun e => SlotTaken s.d e q ∧
        MemHolds e (memKey p dst) (s.d.bytes (memKey p src) (dArg b 2)) ∧ SameMemBut s.d e (memKey p dst) (dArg b 2) ∧
        ∃ t, s.d.started e b t ∧ t.ended = true ∧ t.status = stOk)

/-- A task whose work has ended and whose accesses have been accepted completes: it is gone, and its DONE_TALLY goes up by
one where its status is OK (R193, R195). -/
def Obligations.TaskCompletes : Prop :=
  ∀ id t s, s.d.alive = true → s.d.task id = some t → t.id = id → t.part < 64 → s.d.workEnded t = true → s.d.taskQuiet id = true →
    Does (.taskComplete id) s fun e => (∀ x ∈ e.eng.tasks, x.id ≠ id) ∧ SameMem s.d e ∧
      ∀ n, n < 16384 → s.d.relTally t.part (dDone t.desc) = some n → dDone t.desc ≠ 0xFFFF →
        (t.status = stOk → e.fld (TLY_VALUE_VALUE n) = (s.d.fld (TLY_VALUE_VALUE n) + 1) % 2 ^ 32) ∧
        (t.status ≠ stOk → e.flag (TLY_VALUE_FAULTED n) = true)

/-! ### The DEFAULT services (04) -/

/-- FILL writes its pattern over its range, COPY moves its bytes, MEMTEST counts the errors found and changes no byte outside
its range; each task then ends with OK, a MEMTEST with FAULT where an error was uncorrectable (R111, R115). -/
def Obligations.MemoryServices : Prop :=
  ∀ q p fromHost b s, Starts s.d p q fromHost b → dProof b = false → dKind b = kdService →
    (∀ o, dService b = 1 → s.d.place p (dArg b 0) (dArg b 1) true = .mem o → FreeLines s.d p o (dArg b 1) →
      Does (.fill q fromHost) s fun e => SlotTaken s.d e q ∧
        MemHolds e (memKey p o) (repeated (dArg b 1) (dArg b 2)) ∧ SameMemBut s.d e (memKey p o) (dArg b 1) ∧
        ∃ t, s.d.started e b t ∧ t.ended = true ∧ t.status = stOk) ∧
    (∀ src dst, dService b = 2 → s.d.place p (dArg b 0) (dArg b 2) false = .mem src →
      s.d.place p (dArg b 1) (dArg b 2) true = .mem dst → overlaps src dst (dArg b 2) = false →
      s.d.hostBusy p src (dArg b 2) = [] → FreeLines s.d p dst (dArg b 2) →
      Does (.copy q fromHost) s fun e => SlotTaken s.d e q ∧
        MemHolds e (memKey p dst) (s.d.bytes (memKey p src) (dArg b 2)) ∧ SameMemBut s.d e (memKey p dst) (dArg b 2) ∧
        ∃ t, s.d.started e b t ∧ t.ended = true ∧ t.status = stOk) ∧
    (∀ corr ue o, dService b = 3 → s.d.place p (dArg b 0) (dArg b 1) true = .mem o →
      FreeLines s.d p o (dArg b 1) → s.d.poisoned p none o (dArg b 1) = false →
      Does (.memtest q fromHost corr ue) s fun e => SlotTaken s.d e q ∧ SameMemBut s.d e (memKey p o) (dArg b 1) ∧
        ∃ t, s.d.started e b t ∧ t.ended = true ∧ t.res0 = (corr.filter (· < dArg b 1)).length ∧
          t.res1 = (ue.filter (· < dArg b 1)).length ∧
          t.status = (if ue.filter (· < dArg b 1) = [] then stOk else stFault))

/-- MATMUL writes the product that its operands, byte for byte, give, and ends with OK; a collective of a group without this
device, or a broadcast of a group without its root (the model's choice, log 109), ends with GROUP; in its group it reads its own operand, sends it and waits for the others; a member that does not
come within a second ends the task with GROUP (R111 to R113). -/
def Obligations.ComputeServices : Prop :=
  (∀ q p fromHost b s a0 a1 a2, Starts s.d p q fromHost b → dProof b = false → dKind b = kdService → dService b = 4 →
    s.d.place p (dArg b 0) (mmBytesA b) false = .mem a0 → s.d.place p (dArg b 1) (mmBytesB b) false = .mem a1 →
    s.d.place p (dArg b 2) (mmBytesC b) true = .mem a2 → s.d.place p (dArg b 2) (mmBytesC b) false = .mem a2 →
    s.d.hostBusy p a0 (mmBytesA b) = [] → s.d.hostBusy p a1 (mmBytesB b) = [] →
    s.d.poisoned p none a0 (mmBytesA b) = false → s.d.poisoned p none a1 (mmBytesB b) = false →
    s.d.poisoned p none a2 (mmBytesC b) = false → FreeLines s.d p a2 (mmBytesC b) →
    Does (.matmul q fromHost) s fun e => SlotTaken s.d e q ∧ SameMemBut s.d e (memKey p a2) (mmBytesC b) ∧
      (∃ t, s.d.started e b t ∧ t.ended = true ∧ t.status = stOk) ∧
      ∃ x : Svc, x.bytes 0 0 (mmBytesA b) = s.d.bytes (memKey p a0) (mmBytesA b) ∧
        x.bytes 1 0 (mmBytesB b) = s.d.bytes (memKey p a1) (mmBytesB b) ∧
        (mmAdd b = true → x.bytes 2 0 (mmBytesC b) = s.d.bytes (memKey p a2) (mmBytesC b)) ∧
        MemHolds e (memKey p a2) (matmulBytes x b)) ∧
  (∀ q p fromHost b s, Starts s.d p q fromHost b → dProof b = false → dKind b = kdService →
    ∀ x ∈ [(5, Instr.allreduce), (6, .broadcast), (7, .allgather), (8, .reduceScatter)], dService b = x.1 →
    (bit (cGroup b) s.d.eng.pwr.straps.slot = false ∨ (x.1 = 6 ∧ bit (cGroup b) (cRoot b) = false) →
      (∀ o, s.d.place p (dArg b 0) (cBytes b s.d.eng.pwr.straps.slot) false = .mem o →
        s.d.hostBusy p o (cBytes b s.d.eng.pwr.straps.slot) = []) →
      Does (x.2 q fromHost) s fun e => SlotTaken s.d e q ∧ e.mem = s.d.mem ∧
        ∃ t, s.d.started e b t ∧ t.ended = true ∧ t.status = stGroup) ∧
    (∀ o dst m, bit (cGroup b) s.d.eng.pwr.straps.slot = true → (x.1 = 6 → bit (cGroup b) (cRoot b) = true) →
      s.d.place p (dArg b 0) (cBytes b s.d.eng.pwr.straps.slot) false = .mem o →
      s.d.hostBusy p o (cBytes b s.d.eng.pwr.straps.slot) = [] →
      s.d.poisoned p none o (cBytes b s.d.eng.pwr.straps.slot) = false →
      s.d.place p (cDst b) (cDstBytes b) true = .mem dst → m < 8 → m ≠ s.d.eng.pwr.straps.slot → bit (cGroup b) m = true →
      s.d.eng.inbox = [] → cBytes b s.d.eng.pwr.straps.slot ≤ 4096 →
      Does (x.2 q fromHost) s fun e => SlotTaken s.d e q ∧ e.mem = s.d.mem ∧
        (∃ t, s.d.started e b t ∧ t.ended = false) ∧
        (∃ y ∈ e.eng.svcs, y.task = s.d.eng.nextTask ∧ y.sent = true ∧
          y.bytes s.d.eng.pwr.straps.slot 0 (cBytes b s.d.eng.pwr.straps.slot) =
            s.d.bytes (memKey p o) (cBytes b s.d.eng.pwr.straps.slot)) ∧
        e.fabHas pkService m (leBytes 8 (dTag b) ++ s.d.bytes (memKey p o) (cBytes b s.d.eng.pwr.straps.slot)))) ∧
  (∀ id t x s, s.d.alive = true → s.d.task id = some t → t.id = id → s.d.svc id = some x → dService t.desc ≠ 4 → t.ended = false →
    x.complete t.desc s.d.eng.pwr.straps.slot = false → Does (.serviceGroupTimeout id) s fun e =>
      (∀ y ∈ e.eng.svcs, y.task ≠ id) ∧ e.regs = s.d.regs ∧ e.mem = s.d.mem ∧
      ∃ u, e.task id = some u ∧ u.ended = true ∧ u.status = stGroup)

/-- A FABRIC_SEND ends once its packets have been handed over: a WRITE or ACCUMULATE sends its local bytes, 4,096 at most in
each packet; a READ asks for them; a TALLY_ADD and a DOORBELL send their values (R551 to R554). -/
def Obligations.FabricSends : Prop :=
  ∀ q p fromHost b s, Starts s.d p q fromHost b → dProof b = false → dKind b = kdSend → s.d.peerDropped b = false →
    (sOp b = 1 → s.d.inMemory p (dArg b 1) (dArg b 3) = true → s.d.hostBusy p (dArg b 1) (dArg b 3) = [] →
      Does (.sendWrite q fromHost) s fun e => SlotTaken s.d e q ∧ SameMem s.d e ∧
        (∃ t, s.d.started e b t ∧ t.ended = true ∧ t.status = stOk) ∧
        ∀ c ∈ chunks (dArg b 3), e.windowHas pkWrite (sDest b) (dArg b 2 + c.1) 0
          (s.d.bytes (memKey p (dArg b 1 + c.1)) c.2)) ∧
    (sOp b = 3 → s.d.inMemory p (dArg b 1) (dArg b 3) = true → s.d.hostBusy p (dArg b 1) (dArg b 3) = [] →
      (∀ i ∈ [1, 2, 3], dArg b i % (if dArg b 4 % 2 = 1 then 8 else 4) = 0) →
      Does (.sendAccumulate q fromHost) s fun e => SlotTaken s.d e q ∧ SameMem s.d e ∧
        (∃ t, s.d.started e b t ∧ t.ended = true ∧ t.status = stOk) ∧
        ∀ c ∈ chunks (dArg b 3), e.windowHas pkAccumulate (sDest b) (dArg b 2 + c.1) (dArg b 4 % 2)
          (s.d.bytes (memKey p (dArg b 1 + c.1)) c.2)) ∧
    (sOp b = 2 → s.d.inMemory p (dArg b 1) (dArg b 3) = true →
      Does (.sendRead q fromHost) s fun e => SlotTaken s.d e q ∧ SameMem s.d e ∧
        (∃ t, s.d.started e b t ∧ t.ended = true ∧ t.status = stOk) ∧
        ∀ c ∈ chunks (dArg b 3), ∃ r ∈ e.eng.fab.reqs, r.gather = false ∧ r.task = s.d.eng.nextTask ∧
          r.dst = dArg b 1 + c.1 ∧ r.pkt.kind = pkReadReq ∧ r.pkt.dest = sDest b ∧ r.pkt.addr = dArg b 2 + c.1 ∧
          r.pkt.arg = c.2) ∧
    (sOp b = 4 → Does (.sendTallyAdd q fromHost) s fun e => SlotTaken s.d e q ∧ SameMem s.d e ∧
        (∃ t, s.d.started e b t ∧ t.ended = true ∧ t.status = stOk) ∧
        e.windowHas pkTallyAdd (sDest b) (dArg b 2 % 65536) (dArg b 3) []) ∧
    (sOp b = 5 → Does (.sendDoorbell q fromHost) s fun e => SlotTaken s.d e q ∧ SameMem s.d e ∧
        (∃ t, s.d.started e b t ∧ t.ended = true ∧ t.status = stOk) ∧
        e.windowHas pkDoorbell (sDest b) (dArg b 2 % 2 ^ 18) (dArg b 3 % 65536) [])

/-! ### Igtik: ALU, FPU, CTRL (08, 11) -/

/-- The ALU instructions give each executing lane the value of R268 in DST and change nothing else. -/
def Obligations.AluInstructions : Prop :=
  ∀ sel w x s,
    (∀ k ∈ [(0x00, Instr.mov sel w, fun a : Word => a),
        (0x11, .popc sel w, fun a => BitVec.ofNat 32 ((List.range 32).filter a.getLsbD).length),
        (0x12, .clz sel w, BitVec.clz)],
      Issues s.d sel 0 k.1 w x → Does k.2.1 s fun e => Lanes s.d e x fun l => k.2.2 (x.va l)) ∧
    (∀ k ∈ [(0x02, Instr.iadd sel w, fun a b : Word => a + b), (0x03, .isub sel w, fun a b => a - b),
        (0x04, .imul sel w, fun a b => a * b), (0x07, .and sel w, fun a b => a &&& b), (0x08, .or sel w, fun a b => a ||| b),
        (0x09, .xor sel w, fun a b => a ^^^ b), (0x0A, .shl sel w, fun a b => a <<< (b.toNat % 32))],
      Issues s.d sel 0 k.1 w x → Does k.2.1 s fun e => Lanes s.d e x fun l => k.2.2 (x.va l) (x.vb l)) ∧
    (∀ k ∈ [(0x05, Instr.imulh sel w, fun (sgn : Bool) (a b : Word) =>
          if sgn then (a.signExtend 64 * b.signExtend 64).extractLsb' 32 32
          else (a.setWidth 64 * b.setWidth 64).extractLsb' 32 32),
        (0x0B, .shr sel w, fun sgn a b => if sgn then a.sshiftRight (b.toNat % 32) else a >>> (b.toNat % 32)),
        (0x0C, .min sel w, fun sgn a b => if (if sgn then a.toInt ≤ b.toInt else a.toNat ≤ b.toNat) then a else b),
        (0x0D, .max sel w, fun sgn a b => if (if sgn then a.toInt ≤ b.toInt else a.toNat ≤ b.toNat) then b else a)],
      Issues s.d sel 0 k.1 w x →
        Does k.2.1 s fun e => Lanes s.d e x fun l => k.2.2 (bit w.mod 0) (x.va l) (x.vb l)) ∧
    (∀ k ∈ [(0x06, Instr.imad sel w, fun a b c : Word => a * b + c),
        (0x10, .sel sel w, fun a b c => if c.getLsbD 0 then a else b)],
      Issues s.d sel 0 k.1 w x → Does k.2.1 s fun e => Lanes s.d e x fun l => k.2.2 (x.va l) (x.vb l) (x.vc l)) ∧
    (Issues s.d sel 0 0x01 w x → Does (.movh sel w) s fun e => Lanes s.d e x fun l =>
      BitVec.ofNat 16 w.imm ++ (x.c.read x.now w.dst l).extractLsb' 0 16) ∧
    (Issues s.d sel 0 0x0E w x → Does (.setp sel w) s fun e => Lanes s.d e x fun l =>
      flagWord (if bit w.mod 4 then cmpFp32 (field w.mod 1 3) (x.va l).toNat (x.vb l).toNat
        else if bit w.mod 0 then cmpHolds (field w.mod 1 3) (x.va l).toInt (x.vb l).toInt
        else cmpHolds (field w.mod 1 3) (x.va l).toNat (x.vb l).toNat)) ∧
    (Issues s.d sel 0 0x0F w x → Does (.plop sel w) s fun e => Lanes s.d e x fun l =>
      flagWord (bit w.mod (2 * ((x.va l).toNat % 2) + (x.vb l).toNat % 2))) ∧
    (Issues s.d sel 0 0x13 w x → Does (.shfl sel w) s fun e => Lanes s.d e x fun l => x.va ((x.vb l).toNat % 32)) ∧
    (Issues s.d sel 0 0x14 w x → Does (.vote sel w) s fun e => ∃ v : Word, (Lanes s.d e x fun _ => v) ∧
      ∀ l, l < 32 → v.getLsbD l = decide (l ∈ x.exec ∧ x.va l ≠ 0))

/-- The FPU instructions round the exact result once, in FP32 or in each half of a packed format; under stochastic rounding
the generator's word comes from the key in u60 to u63 and the index operand; FRCP, FRSQ, FEXP2 and FLOG2 give the special
functions of the model, whose last two ulps the configuration leaves open (log 8) (R269 to R272, R375 to R383). -/
def Obligations.FpuInstructions : Prop :=
  ∀ sel w x s,
    let md := field w.mod 0 2
    (∀ k ∈ [(0, Instr.fadd sel w, Val.add), (1, .fmul sel w, Val.mul)], Issues s.d sel 1 k.1 w x →
      Does k.2.1 s fun e => Lanes s.d e x fun l => byFormat w.mod fun fm h part =>
        fm.round md (genWord x.c.key (x.vc l + BitVec.ofNat 32 h))
          (k.2.2 (fm.decode (part (x.va l))) (fm.decode (part (x.vb l))))) ∧
    (Issues s.d sel 1 2 w x → Does (.ffma sel w) s fun e => Lanes s.d e x fun l => byFormat w.mod fun fm h part =>
        fm.round md (genWord x.c.key ((if md = 2 then x.c.read x.now (w.c + 1) l else 0) + BitVec.ofNat 32 h))
          (((fm.decode (part (x.va l))).mul (fm.decode (part (x.vb l)))).add (fm.decode (part (x.vc l))))) ∧
    (∀ k ∈ [(3, Instr.fmin sel w, false), (4, .fmax sel w, true)], Issues s.d sel 1 k.1 w x →
      Does k.2.1 s fun e => Lanes s.d e x fun l => byFormat w.mod fun fm _ part =>
        fm.minMax k.2.2 (part (x.va l)) (part (x.vb l))) ∧
    (∀ k ∈ [(5, Instr.frcp sel w, frcp), (6, .frsq sel w, frsq), (7, .fexp2 sel w, fexp2), (8, .flog2 sel w, flog2)],
      Issues s.d sel 1 k.1 w x → Does k.2.1 s fun e => Lanes s.d e x fun l => k.2.2 (x.va l)) ∧
    (Issues s.d sel 2 0 w x → Does (.cvt sel w) s fun e => Lanes s.d e x fun l => BitVec.ofNat 32 (roundAs (field w.mod 4 4) (field w.mod 8 2)
        (genWord x.c.key (x.vc l)) (decodeAs (field w.mod 0 4) (x.va l).toNat)))

/-- Rounding keeps what a format holds: in all six floating-point formats, in every rounding mode, the value of a code that
is no NaN rounds to that code (R371, R378 to R380). -/
def Obligations.RoundingKeepsCodes : Prop :=
  ∀ f ∈ [fp32, bf16, fp16, e4m3, e5m2, e2m1], ∀ mode g x, x < 2 ^ f.bits → f.decode x ≠ .nan →
    f.round mode g (f.decode x) = x

/-- BRA and BRA.R take the lanes whose condition holds to the target and the others of the path past the branch; EXIT ends
the executing lanes; NOP passes (R253, R273). -/
def Obligations.ControlInstructions : Prop :=
  ∀ sel w x s,
    let holds := fun v : Word => match w.mod % 8 with
      | 0 => True
      | 1 => v = 0
      | 2 => v ≠ 0
      | 3 => v.toInt < 0
      | _ => 0 ≤ v.toInt
    (Issues s.d sel 3 0 w x → Does (.bra sel w) s fun e =>
      e.regs = s.d.regs ∧ e.mem = s.d.mem ∧ ∃ c, CaravanOnly s.d e x.n x.slot c ∧ SameLaneRegs x c ∧ ∀ l, l < 32 →
        (l ∈ x.exec ∧ holds (x.va l) → (c.pc l : Int) = ((sel.pc : Int) + 8 * signed 18 w.imm) % 2 ^ 32) ∧
        (l ∈ x.path ∧ ¬ (l ∈ x.exec ∧ holds (x.va l)) → c.pc l = x.c.pc l + 8) ∧ (l ∉ x.path → c.pc l = x.c.pc l)) ∧
    (Issues s.d sel 3 1 w x → Does (.braR sel w) s fun e =>
      e.regs = s.d.regs ∧ e.mem = s.d.mem ∧ ∃ c, CaravanOnly s.d e x.n x.slot c ∧ SameLaneRegs x c ∧ ∀ l, l < 32 →
        (l ∈ x.exec ∧ holds (x.vb l) → c.pc l = (x.va l).toNat % 2 ^ 27 * 8) ∧
        (l ∈ x.path ∧ ¬ (l ∈ x.exec ∧ holds (x.vb l)) → c.pc l = x.c.pc l + 8) ∧ (l ∉ x.path → c.pc l = x.c.pc l)) ∧
    (Issues s.d sel 3 2 w x → Does (.exit sel w) s fun e => e.mem = s.d.mem ∧ SameRegs s.d e thrRegs ∧
      (∀ m, m ≠ x.n → e.quire m = s.d.quire m) ∧ ∃ c, e.caravan x.n x.slot = some c ∧ SameLaneRegs x c ∧ ∀ l, l < 32 →
        (l ∈ x.exec → c.exited l = true ∧ c.pc l = x.c.pc l) ∧
        (l ∈ x.path ∧ l ∉ x.exec → c.isActive l = true ∧ c.pc l = x.c.pc l + 8)) ∧
    (Issues s.d sel 3 3 w x → Does (.nop sel w) s fun e => e.regs = s.d.regs ∧ e.mem = s.d.mem ∧
      ∃ c, CaravanOnly s.d e x.n x.slot c ∧ SameLaneRegs x c ∧ Passed x c)

/-! ### Igtik: MEM and ATOM (08, 09) -/

/-- LD from the leaf gives each executing lane the bytes at its address, zero- or sign-extended; from device memory and from
the host a load whose lines the folio's cache holds gives their bytes, and another makes its path wait; MEM_DATA_ARRIVAL
delivers to a path that waits, where no earlier transaction on its lines is unfinished and nothing else waits at the homes
(R138, R228 to R230, R274). -/
def Obligations.LoadsDeliver : Prop :=
  (∀ sel w hit x (place : Nat → Nat × Gathering) (line : Nat → HostLine) s, Issues s.d sel 4 0 w x →
    (∀ l ∈ x.exec, x.addr l % memBytes w = 0) →
    (field w.mod 0 2 = 0 →
      (∀ l ∈ x.exec, s.d.leafAt x.n x.g (x.addr l) (memBytes w) (s.d.cluster x.n) = some (place l)) →
      Does (.ld sel w hit) s fun e => e.mem = s.d.mem ∧ SameRegs s.d e thrRegs ∧
        ∃ c, CaravanOnly s.d e x.n x.slot c ∧ Passed x c ∧ Written x c (regsFor (memBytes w)) fun i l =>
          wordOf (extend32 (memBytes w) (bit w.mod 5)
            ((s.d.quire (place l).1).leafNat (place l).2 (laOff (x.addr l)) (memBytes w))) i) ∧
    (field w.mod 0 2 = 1 → x.exec ≠ [] → s.d.taskView x.task.id = none → hit = true →
      (∀ l ∈ x.exec, s.d.inMemory x.task.part (x.addr l) (memBytes w) = true ∧
        s.d.folioHolds none (folioOf x.n) (lineKey x.task.part (x.addr l)) = true ∧
        s.d.poisoned x.task.part none (x.addr l) (memBytes w) = false) →
      Does (.ld sel w hit) s fun e => e.regs = s.d.regs ∧ e.mem = s.d.mem ∧
        ∃ c, CaravanOnly s.d e x.n x.slot c ∧ Passed x c ∧ Written x c (regsFor (memBytes w)) fun i l =>
          wordOf (extend32 (memBytes w) (bit w.mod 5)
            (leNat (s.d.bytes (memKey x.task.part (x.addr l)) (memBytes w)))) i) ∧
    (field w.mod 0 2 = 2 → x.exec ≠ [] → (∀ l ∈ x.exec, s.d.hostPermit x.task.part (x.addr l) (memBytes w) false = true ∧
        s.d.hostLine x.task.part (folioOf x.n) (x.addr l / 64) = some (line l) ∧ (line l).poison = false) →
      Does (.ld sel w hit) s fun e => e.regs = s.d.regs ∧ e.mem = s.d.mem ∧
        ∃ c, CaravanOnly s.d e x.n x.slot c ∧ Passed x c ∧ Written x c (regsFor (memBytes w)) fun i l =>
          wordOf (extend32 (memBytes w) (bit w.mod 5)
            (leNat ((List.range (memBytes w)).map fun j => (line l).data.getD (x.addr l % 64 + j) 0))) i) ∧
    (x.exec ≠ [] → (field w.mod 0 2 = 1 ∧
        (hit = false ∨ ∃ l ∈ x.exec, s.d.folioHolds (s.d.taskView x.task.id) (folioOf x.n) (lineKey x.task.part (x.addr l)) = false) ∧
        ∀ l ∈ x.exec, s.d.inMemory x.task.part (x.addr l) (memBytes w) = true) ∨
      (field w.mod 0 2 = 2 ∧ s.d.axlUp = true ∧
        (∃ l ∈ x.exec, s.d.hostLine x.task.part (folioOf x.n) (x.addr l / 64) = none) ∧
        ∀ l ∈ x.exec, s.d.hostPermit x.task.part (x.addr l) (memBytes w) false = true) →
      Does (.ld sel w hit) s fun e => e.mem = s.d.mem ∧ SameRegs s.d e thrRegs ∧
        (∃ c, e.caravan x.n x.slot = some c ∧ SameLaneRegs x c ∧
          ∀ l, l < 32 → c.pc l = x.c.pc l ∧ c.thread l = if l ∈ x.path then .waitMem s.d.eng.nextTask else x.c.thread l) ∧
        ∃ y ∈ e.eng.memWaits, y.id = s.d.eng.nextTask ∧ y.quire = x.n ∧ y.slot = x.slot ∧ y.lanes = x.lanesAt ∧
          y.host = (field w.mod 0 2 == 2) ∧ y.atom = none ∧ y.ret = true ∧ y.dst = w.dst ∧ y.width = memBytes w)) ∧
  (∀ id y t c s, s.d.alive = true → s.d.eng.memWaits.find? (fun y => y.id == id) = some y → y.host = false →
    y.atom = none → y.ret = true → s.d.task (s.d.ownerOf id) = some t → t.epoch = none → y.dst + regsFor y.width ≤ 255 →
    (∀ la ∈ y.lanes, la.1 < 32 ∧ s.d.poisoned t.part none la.2 y.width = false) →
    ComesNext s.d y t.part → s.d.caravan y.quire y.slot = some c →
    Does (.memDataArrival id .clean) s fun e => SameMem s.d e ∧ (∀ v ∈ e.eng.memWaits, v.id ≠ id) ∧
      ∃ c', e.caravan y.quire y.slot = some c' ∧
        (∀ l, l < 32 → c.thread l = .waitMem id → c'.thread l = .active ∧ c'.pc l = c.pc l + 8) ∧
        ∀ l a i, y.lanes.find? (fun la => la.1 == l) = some (l, a) → i < regsFor y.width → c'.reg (y.dst + i) l =
          wordOf (extend32 y.width y.sext (leNat (s.d.bytes (memKey t.part a) y.width))) i) ∧
  (∀ id ecc y t c s, s.d.alive = true → s.d.eng.memWaits.find? (fun y => y.id == id) = some y → y.host = true →
    (∀ v ∈ y.want, v.host = false) → y.poison = false → y.ret = true → s.d.task (s.d.ownerOf id) = some t →
    y.dst + regsFor y.width ≤ 255 → (∀ la ∈ y.lanes, la.1 < 32) → s.d.caravan y.quire y.slot = some c →
    Does (.memDataArrival id ecc) s fun e => e.regs = s.d.regs ∧ e.mem = s.d.mem ∧ (∀ v ∈ e.eng.memWaits, v.id ≠ id) ∧
      ∃ c', e.caravan y.quire y.slot = some c' ∧
        (∀ l, l < 32 → c.thread l = .waitMem id → c'.thread l = .active ∧ c'.pc l = c.pc l + 8) ∧
        ∀ l a i, y.lanes.find? (fun la => la.1 == l) = some (l, a) → i < regsFor y.width →
          (y.atom = none → (∀ j, j < y.width → (y.got.find? fun b => b.1 == a + j).isSome = true) →
            c'.reg (y.dst + i) l = wordOf (extend32 y.width y.sext (leNat ((List.range y.width).map fun j =>
              ((y.got.find? fun b => b.1 == a + j).getD (0, 0)).2))) i) ∧
          ∀ v, y.atom ≠ none → y.old.find? (fun o => o.1 == l) = some (l, v) → c'.reg (y.dst + i) l = wordOf v i)

/-- ST stores the bytes of the register that DST names: in the leaf the last lane's bytes stand, in device memory those of
every lane that no other lane's store meets, and nothing but the bytes stored to changes; a store to the host sends each
lane's bytes (R275, R678). -/
def Obligations.StoresWrite : Prop :=
  ∀ sel w x (place : Nat → Nat × Gathering) s, Issues s.d sel 4 1 w x →
    (∀ l ∈ x.exec, x.addr l % memBytes w = 0) →
    (field w.mod 0 2 = 0 →
      (∀ l ∈ x.exec, s.d.leafAt x.n x.g (x.addr l) (memBytes w) (s.d.cluster x.n) = some (place l)) →
      ∀ ecc, Does (.st sel w ecc) s fun e => e.mem = s.d.mem ∧ SameRegs s.d e thrRegs ∧
        (∃ c, e.caravan x.n x.slot = some c ∧ Passed x c ∧ SameLaneRegs x c) ∧
        (∀ l, x.exec.getLast? = some l →
          (e.quire (place l).1).leafBytes (place l).2 (laOff (x.addr l)) (memBytes w) = x.stored (memBytes w) l) ∧
        ∀ m k, (∀ l ∈ x.exec, (place l).1 = m →
            ∀ i, i < memBytes w → k ≠ (place l).2.phys (laOff (x.addr l) + i)) →
          Store.get zeroByte k (e.quire m).leaf = Store.get zeroByte k (s.d.quire m).leaf) ∧
    (field w.mod 0 2 = 1 → s.d.taskView x.task.id = none →
      (∀ l ∈ x.exec, s.d.inMemory x.task.part (x.addr l) (memBytes w) = true ∧
        FreeLines s.d x.task.part (x.addr l) (memBytes w)) →
      Does (.st sel w .clean) s fun e =>
        (∃ c, e.caravan x.n x.slot = some c ∧ Passed x c ∧ SameLaneRegs x c) ∧
        (∀ l ∈ x.exec, (∀ k ∈ x.exec, k ≠ l → x.addr k ≠ x.addr l) →
          MemHolds e (memKey x.task.part (x.addr l)) (x.stored (memBytes w) l)) ∧
        ∀ k, (∀ l ∈ x.exec, ¬ (memKey x.task.part (x.addr l) ≤ k ∧ k < memKey x.task.part (x.addr l) + memBytes w)) →
          e.byte k = s.d.byte k) ∧
    (field w.mod 0 2 = 2 → s.d.taskView x.task.id = none → s.d.axlUp = true →
      s.d.eng.pwr.stopping = false → (∀ l ∈ x.exec, s.d.hostPermit x.task.part (x.addr l) (memBytes w) true = true) →
      ∀ ecc, Does (.st sel w ecc) s fun e => e.regs = s.d.regs ∧ e.mem = s.d.mem ∧
        (∃ c, e.caravan x.n x.slot = some c ∧ Passed x c ∧ SameLaneRegs x c) ∧
        ∀ l ∈ x.exec, ∃ m, m.addr = x.addr l ∧ m.data = x.stored (memBytes w) l ∧ m.part = x.task.part ∧
          (e.hasSent m ∨ m ∈ e.eng.axl.reqWait.map ReqWait.msg))

/-- The eight atomics: in the leaf the first lane gets what stood there and, executed by one lane, the result stands there
after; one to device memory or to the host waits, and at MEM_DATA_ARRIVAL one in device memory changes what stands there
(R221, R229, R230, R276). -/
def Obligations.AtomicsAct : Prop :=
  ∀ sel w x (place : Nat → Nat × Gathering) s,
    let sgn := bit w.mod 4
    let le := fun (bits a b : Nat) => if sgn then signed bits a ≤ signed bits b else a ≤ b
    ∀ k ∈ [(Instr.atomAdd sel w, 0, fun bits old v _ : Nat => (old + v) % 2 ^ bits),
        (.atomMin sel w, 1, fun bits old v _ => if le bits old v then old else v),
        (.atomMax sel w, 2, fun bits old v _ => if le bits old v then v else old),
        (.atomAnd sel w, 3, fun _ old v _ => old &&& v), (.atomOr sel w, 4, fun _ old v _ => old ||| v),
        (.atomXor sel w, 5, fun _ old v _ => old ^^^ v), (.atomSwap sel w, 6, fun _ _ v _ => v),
        (.atomCas sel w, 7, fun _ old v c => if old = c then v else old)],
      (Issues s.d sel 5 k.2.1 w x → x.exec ≠ [] →
        (∀ l ∈ x.exec, x.addr l % atomBytes w = 0) →
        (field w.mod 0 2 = 0 →
          (∀ l ∈ x.exec, s.d.leafAt x.n x.g (x.addr l) (atomBytes w) (s.d.cluster x.n) = some (place l)) →
          Does k.1 s fun e => e.mem = s.d.mem ∧ SameRegs s.d e thrRegs ∧
            ∀ l, x.exec.head? = some l →
              let old := (s.d.quire (place l).1).leafNat (place l).2 (laOff (x.addr l)) (atomBytes w)
              (∃ c, e.caravan x.n x.slot = some c ∧ Passed x c ∧ (bit w.mod 3 = true → w.dst < 0xFF →
                ∀ i, i < regsFor (atomBytes w) → c.reg (w.dst + i) l = wordOf old i)) ∧
              (x.exec = [l] → (e.quire (place l).1).leafNat (place l).2 (laOff (x.addr l)) (atomBytes w) =
                k.2.2 (8 * atomBytes w) old (x.atomVals (atomBytes w) l).1 (x.atomVals (atomBytes w) l).2)) ∧
        ((field w.mod 0 2 = 1 ∧
            ∀ l ∈ x.exec, s.d.inMemory x.task.part (x.addr l) (atomBytes w) = true) ∨
          (field w.mod 0 2 = 2 ∧ s.d.axlUp = true ∧ s.d.taskView x.task.id = none ∧
            ∀ l ∈ x.exec, s.d.hostPermit x.task.part (x.addr l) (atomBytes w) true = true) →
          Does k.1 s fun e => e.mem = s.d.mem ∧ SameRegs s.d e thrRegs ∧
            (∃ y ∈ e.eng.memWaits, y.id = s.d.eng.nextTask ∧ y.atom = some (k.2.1, sgn) ∧ y.lanes = x.lanesAt ∧
              y.host = (field w.mod 0 2 == 2) ∧ y.vals = x.atomList (atomBytes w) ∧ y.ret = bit w.mod 3) ∧
            ∃ c, e.caravan x.n x.slot = some c ∧ SameLaneRegs x c ∧ ∀ l ∈ x.path, if bit w.mod 3 then
              c.thread l = .waitMem s.d.eng.nextTask else c.thread l = .active ∧ c.pc l = x.c.pc l + 8)) ∧
      ∀ id y t l a v, s.d.alive = true → s.d.eng.memWaits.find? (fun y => y.id == id) = some y → y.host = false →
        y.atom = some (k.2.1, sgn) → y.lanes = [(l, a)] → y.vals = [(l, v)] → y.width = 4 ∨ y.width = 8 →
        s.d.task (s.d.ownerOf id) = some t → t.epoch = none → a % y.width = 0 →
        s.d.poisoned t.part none a y.width = false → ComesNext s.d y t.part →
        Does (.memDataArrival id .clean) s fun e => SameMemBut s.d e (memKey t.part a) y.width ∧
          MemHolds e (memKey t.part a) (leBytes y.width
            (k.2.2 (8 * y.width) (leNat (s.d.bytes (memKey t.part a) y.width)) v.1 v.2))

/-! ### Igtik: SYNC (07 to 09) -/

/-- A lane that arrives at BAR.C waits until every lane of its mask has arrived or exited, and then all of them go on; the
same holds at BAR.G for the caravans of its mask (R233 to R236, R239, R277). -/
def Obligations.BarriersHold : Prop :=
  (∀ sel w x s, Issues s.d sel 6 0 w x →
    let m := fun l => if bit w.mod 0 then 0xFFFFFFFF else (x.va l).toNat
    let met := fun k => ∀ j, j < 32 → bit k j = true →
      (j ∈ x.exec ∧ m j = k) ∨ x.c.thread j = .waitBarC k ∨ x.c.exited j = true
    Does (.barC sel w) s fun e => e.mem = s.d.mem ∧ SameRegs s.d e thrRegs ∧
      ∃ c, e.caravan x.n x.slot = some c ∧ SameLaneRegs x c ∧
        (∀ l ∈ x.path, ¬ (l ∈ x.exec ∧ bit (m l) l = true) → c.thread l = .active ∧ c.pc l = x.c.pc l + 8) ∧
        ∀ l ∈ x.exec, bit (m l) l = true →
          (met (m l) → c.thread l = .active ∧ c.pc l = x.c.pc l + 8) ∧
          (¬ met (m l) → c.thread l = .waitBarC (m l) ∧ c.pc l = x.c.pc l)) ∧
  (∀ sel w x k s, Issues s.d sel 6 1 w x → x.exec ≠ [] → x.task.ended = false →
    (∀ l ∈ x.exec, (x.va l).toNat % 65536 = k) → bit k x.c.index = true →
    (∀ st ∈ (s.d.quire x.n).stalls, st.isBarG x.task.id x.g.num (w.mod % 16) = true → st.mask = k) →
    (∀ y ∈ (s.d.quire x.n).caravans, y.slot = x.slot → y = x.c) →
    let b := w.mod % 16
    let met := ∀ y ∈ (s.d.quire x.n).members x.task.id x.g.num, bit k y.index = true → ∀ l, l < 32 →
      (y = x.c ∧ l ∈ x.exec) ∨ y.thread l = .waitBarG b ∨ y.exited l = true
    Does (.barG sel w) s fun e => e.mem = s.d.mem ∧ SameRegs s.d e thrRegs ∧
      ∃ c, e.caravan x.n x.slot = some c ∧ SameLaneRegs x c ∧ ∀ l ∈ x.exec,
        (met → c.thread l = .active ∧ c.pc l = x.c.pc l + 8) ∧
        (¬ met → c.thread l = .waitBarG b ∧ c.pc l = x.c.pc l))

/-- ARRIVE adds to an arrival counter once for each executing lane, or releases slots of the stream bound to it; AWAIT
passes the lanes whose target the counter has reached in half-range order, the others wait (R277, R300 to R302).
TALLY.ADD adds to tallies of the partition once for each executing lane; TALLY.WAIT passes a lane whose tally has
reached its target with 1, one whose tally is FAULTED with 0, and the others wait; FENCE holds a lane's later accesses
while an earlier one in its scope is outstanding (R198, R278, R279). -/
def Obligations.CountersTalliesAndFences : Prop :=
  (∀ sel w x s,
    let k := w.mod % 32
    (Issues s.d sel 6 2 w x → (s.d.quire x.n).late = [] → (s.d.quire x.n).leafWork x.slot 0xFFFFFFFF = [] → x.exec ≠ [] →
      Does (.arrive sel w) s fun e => e.regs = s.d.regs ∧ e.mem = s.d.mem ∧
        (∃ c, e.caravan x.n x.slot = some c ∧ SameLaneRegs x c ∧ ∀ l ∈ x.path, c.thread l = .active ∧ c.pc l = x.c.pc l + 8) ∧
        ((s.d.quire x.n).bound k = false →
          (e.quire x.n).counter k =
            ((s.d.quire x.n).counter k + (x.exec.map fun l => (x.arg l).toNat).foldl (· + ·) 0) % 2 ^ 32) ∧
        ((s.d.quire x.n).bound k = true → (∀ l ∈ x.exec, 0 < (x.arg l).toInt) →
          (e.quire x.n).counter k = (s.d.quire x.n).counter k ∧
          ((e.quire x.n).stream (k - 16)).released = ((s.d.quire x.n).stream (k - 16)).released +
            (x.exec.map fun l => (x.arg l).toNat).foldl (· + ·) 0)) ∧
    (Issues s.d sel 6 3 w x → k < 16 ∨ ((s.d.quire x.n).stream (k - 16)).dropped = [] →
      Does (.await sel w) s fun e => e.mem = s.d.mem ∧ SameRegs s.d e thrRegs ∧
        ∃ c, CaravanOnly s.d e x.n x.slot c ∧ SameLaneRegs x c ∧ ∀ l ∈ x.path,
          if l ∈ x.exec ∧ ¬ ((s.d.quire x.n).counter k + 2 ^ 32 - (x.arg l).toNat) % 2 ^ 32 < 2 ^ 31
          then c.thread l = .waitArrive k (x.arg l).toNat ∧ c.pc l = x.c.pc l
          else c.thread l = .active ∧ c.pc l = x.c.pc l + 8)) ∧
  ((∀ sel w x (t : Nat → Nat) s, Issues s.d sel 6 4 w x →
    (∀ l ∈ x.exec, s.d.relTally x.task.part (x.va l).toNat = some (t l) ∧ t l < 16384) →
    Does (.tallyAdd sel w) s fun e => SameMem s.d e ∧
      (∃ c, e.caravan x.n x.slot = some c ∧ ∀ l ∈ x.path, c.thread l = .active ∧ c.pc l = x.c.pc l + 8) ∧ ∀ n, n < 16384 →
      e.fld (TLY_VALUE_VALUE n) = (s.d.fld (TLY_VALUE_VALUE n) +
        ((x.exec.filter fun l => t l == n).map fun l => (x.vb l).toNat).foldl (· + ·) 0) % 2 ^ 32) ∧
  (∀ sel w x (t : Nat → Nat) s, Issues s.d sel 6 5 w x →
    (∀ l ∈ x.exec, s.d.relTally x.task.part (x.va l).toNat = some (t l)) →
    Does (.tallyWait sel w) s fun e => e.mem = s.d.mem ∧ SameRegs s.d e thrRegs ∧
      ∃ c, CaravanOnly s.d e x.n x.slot c ∧ ∀ l ∈ x.exec,
        let goes := s.d.flag (TLY_VALUE_FAULTED (t l)) || tallySat (s.d.fld (TLY_VALUE_VALUE (t l))) (x.vb l).toNat
        (goes = true → c.thread l = .active ∧ c.pc l = x.c.pc l + 8 ∧
          ∀ r, opnd w.dst = .p r → c.pred r l = !s.d.flag (TLY_VALUE_FAULTED (t l))) ∧
        (goes = false → c.thread l = .waitTally (t l) (x.vb l).toNat w.dst ∧ c.pc l = x.c.pc l)) ∧
  (∀ sel w x s, Issues s.d sel 6 6 w x →
    Does (.fence sel w) s fun e => e.regs = s.d.regs ∧ e.mem = s.d.mem ∧
      (∃ c, e.caravan x.n x.slot = some c ∧ SameLaneRegs x c ∧ Passed x c) ∧
      ∀ l ∈ x.exec, ∀ a ∈ (s.d.quire x.n).accs, a.slot = x.slot → a.space = w.mod % 4 → bit a.lanes l = true →
        s.d.accessOpen x.n a.id = true →
        ∃ f ∈ (e.quire x.n).fences, f.slot = x.slot ∧ f.lanes = 2 ^ l ∧ a.id ∈ f.ids))

/-- The front gathering of a role is placed on the first quire with room: each caravan takes the lowest free slot and
starts at program counter 0 with its thread numbers in g0 and its arguments in u0 to u7; a slot whose caravan has
stopped, or has ended with nothing outstanding, becomes empty (R211 to R217). An instance that still waits for a thread and
has waited as long as THR_WDOG says fires once: it is recorded, counted and flagged for its partition, and under ACTION its task ends with
BARRIER_TIMEOUT (R244 to R247). -/
def Obligations.GatheringsRun : Prop :=
  ((∀ p role t n s, s.d.alive = true → s.d.frontTask p role = some t → s.d.task t.id = some t →
    (s.d.activeQuires p role).find? (fun n => (s.d.quire n).hasRoom t) = some n →
    Does (.gatheringPlace p role) s fun e => e.regs = s.d.regs ∧ e.mem = s.d.mem ∧
      e.task t.id = some { t with next := t.next + 1 } ∧
      ∀ i k, (s.d.quire n).freeSlots[i]? = some k → i < dCaravans t.desc →
        ∃ c, e.caravan n k = some c ∧ c.task = t.id ∧ c.gath = t.next ∧ c.index = i ∧ c.stopping = false ∧
          (∀ l, c.pc l = 0 ∧ c.thread l = .active) ∧
          (∀ r l, l < 32 → c.reg r l = if r = 0 then BitVec.ofNat 32 (i * 32 + l) else 0) ∧
          (∀ j, j < 6 → c.uni j = wordOf (dArg t.desc (2 + j / 2)) (j % 2)) ∧
          c.uni 6 = BitVec.ofNat 32 t.next ∧ c.uni 7 = BitVec.ofNat 32 (i + dCaravans t.desc * 16)) ∧
  (∀ n slot c s, s.d.alive = true → s.d.caravan n slot = some c →
    c.stopping = true ∨ (c.live = [] ∧ s.d.slotQuiet n c = true ∧
      (∀ kv ∈ (s.d.quire n).streams, ¬ (kv.2.task = c.task ∧ kv.2.gath = c.gath)) ∧
      ∀ y ∈ (s.d.quire n).copies, ¬ (y.task = c.task ∧ y.gath = c.gath)) →
    Does (.slotDrained n slot) s fun e => e.caravan n slot = none ∧ e.regs = s.d.regs ∧ e.mem = s.d.mem ∧
      ∀ m k, ¬ (m = n ∧ k = slot) → e.caravan m k = s.d.caravan m k)) ∧
  (∀ n i st s, s.d.alive = true → n < 1536 → (s.d.quire n).stalls[i]? = some st → s.d.fld (THR_WDOG_LIMIT n) ≠ 0 →
    st.fired = none → (s.d.quire n).collComplete st = false → (∀ p, s.d.quirePart n = some p → p < 64) →
    Does (.barrierWatchdog n i) s fun e =>
      let k := s.d.fld (THR_STALL_COUNT_FIRED n)
      SameMem s.d e ∧ e.fld (THR_STALL_COUNT_FIRED n) = (k + 1) % 2 ^ 32 ∧
      e.fld (THR_STALL_REC1_VALID n (k % 4)) = 1 ∧ e.fld (THR_STALL_REC1_KIND n (k % 4)) = st.kind % 4 ∧
      e.fld (THR_STALL_REC1_SLOT n (k % 4)) = st.slot % 64 ∧ e.fld (THR_STALL_REC2_MASK n (k % 4)) = st.mask % 2 ^ 32 ∧
      (∀ p, s.d.quirePart n = some p → e.flag (PART_STATUS_BARRIER_STALL p) = true) ∧
      (s.d.flag (THR_WDOG_ACTION n) = true → ∀ t, s.d.task st.task = some t → t.ended = false →
        s.d.ownerOf st.task = st.task →
        ∃ u, e.task st.task = some u ∧ u.ended = true ∧ u.status = stFault ∧ u.fkind = fkBarrierTimeout))

/-! ### Igtik: the matrix unit (10) -/

/-- An MTX instruction reads its descriptor, enters the queue of eight of its quire's matrix unit, and its threads go
on; a GSEND likewise where 64 sends are not outstanding and the reduction pool has room (R284, R331, R349, R495, R496,
R500). The unit at work. A weight load of one block brings the stored bytes, transposed for MLOAD.T, into the set its
descriptor names; a pass of MTILE.F over 16-bit operands leaves the rounded column sums, added to the accumulator under
ACC; MSTORE writes its rows to the leaf; GSEND keeps its packet and sends it (R328, R338, R340, R345, R350, R351, R354,
R497, R498). -/
def Obligations.MatrixUnitsAct : Prop :=
  (∀ sel w x v s,
    let q := s.d.quire x.n
    let p := x.task.part
    let tile := field w.ext 0 8
    (∀ k ∈ [(0, Instr.mtileF sel w, MKind.mtileF), (1, .mtileB sel w, .mtileB), (2, .mtileX sel w, .mtileX),
        (3, .mload sel w, .mload), (4, .mloadT sel w, .mloadT), (5, .mstore sel w, .mstore)],
      IssuesLong s.d sel 8 k.1 w x → x.va.toNat % 16 = 0 → x.descriptor s.d 32 = some v →
      mtxFault s.d x.n x.g k.2.2 (tileOf v) tile = none →
      Does k.2.1 s fun e => e.mem = s.d.mem ∧ SameRegs s.d e thrRegs ∧ CollPassed e x ∧
        ∃ o, (e.quire x.n).mtx = { q.mtx with queue := q.mtx.queue ++ [o] } ∧ o.kind = k.2.2 ∧ o.tile = tile ∧
          o.acc = bit w.ext 8 ∧ o.desc = tileOf v ∧ o.loads = 0 ∧ o.passes = 0 ∧ o.task = x.task.id ∧
          o.gath = x.g.num ∧ o.slot = x.slot ∧ o.cmask = x.mask) ∧
    (IssuesLong s.d sel 11 2 w x → x.va.toNat % 16 = 0 → x.descriptor s.d 16 = some v →
      field v 44 4 = 0 → field v 71 9 = 0 → field v 96 32 = 0 → field v 32 12 < s.d.accumCount p →
      field v 0 32 < s.d.fld (TRN_SHARD_SLOTS_SLOTS p) * s.d.shardRanks p → isRecto x.n = false → tile % 8 = 0 →
      tile + 8 ≤ accTiles x.n →
      Does (.gsend sel w) s fun e => e.mem = s.d.mem ∧ SameRegs s.d e thrRegs ∧ CollPassed e x ∧
        ∃ o, (e.quire x.n).mtx = { q.mtx with queue := q.mtx.queue ++ [o] } ∧ o.kind = .gsend ∧ o.tile = tile ∧
          o.gdesc = v ∧ o.task = x.task.id ∧ o.gath = x.g.num ∧ o.slot = x.slot ∧ o.cmask = x.mask)) ∧
  ((∀ n o rest g s, s.d.alive = true → (s.d.quire n).mtx.queue = o :: rest →
    (s.d.quire n).gathering o.task o.gath = some g → o.kind ∈ [.mload, .mloadT] → o.loads = 0 → o.passes = 0 →
    o.desc.fmtB ∈ [1, 2, 3, 4, 6] → o.desc.cplx = false →
    Does (.mtxWeightLoadStart n) s fun e => e.mem = s.d.mem ∧ SameRegs s.d e (· = MTX_STRETCH_COUNT n) ∧
      e.fld (MTX_STRETCH_COUNT_LOADS n) = (s.d.fld (MTX_STRETCH_COUNT_LOADS n) + 1) % 2 ^ 32 ∧
      (e.quire n).mtx.queue = rest ∧
      ∃ ws, (e.quire n).mtx.loading = (s.d.quire n).mtx.loading ++ [(o.id, o.desc.wset, ws)] ∧
        ws.fmt = o.desc.fmtB ∧ ∀ k c, k < kp o.desc.fmtB → c < 32 → Store.get zeroNat (k * 32 + c) ws.w =
          (s.d.quire n).leafNat g (o.desc.bOff + (if o.kind = .mloadT then c * o.desc.ldb + k * esize o.desc.fmtB
            else k * o.desc.ldb + c * esize o.desc.fmtB)) (esize o.desc.fmtB)) ∧
  (∀ n id k ws rest s, s.d.alive = true → (s.d.quire n).mtx.loading = (id, k, ws) :: rest → (∀ l ∈ rest, l.1 ≠ id) →
    Does (.mtxWeightSetReady n) s fun e => e.regs = s.d.regs ∧ e.mem = s.d.mem ∧
      (e.quire n).mtx = { (s.d.quire n).mtx with
        loading := rest
        side := (s.d.quire n).mtx.side.filter fun b => b.1 != id
        set0 := if k = 0 then ws else (s.d.quire n).mtx.set0
        set1 := if k = 0 then (s.d.quire n).mtx.set1 else ws }) ∧
  (∀ n o rest g s, s.d.alive = true → (s.d.quire n).mtx.queue = o :: rest →
    (s.d.quire n).gathering o.task o.gath = some g → o.kind = .mtileF → o.desc.logical = false → o.loads = 0 →
    o.passes = 0 → o.desc.fmtA ∈ [1, 2] → (s.d.quire n).mtx.sets.serve o.kind o.desc = true →
    (∀ l ∈ (s.d.quire n).mtx.loading, l.2.1 ≠ o.desc.wset) → (∀ p ∈ (s.d.quire n).mtx.passes, o.tile ∉ p.tiles) →
    let q := s.d.quire n
    let set := if o.desc.wset = 0 then q.mtx.set0 else q.mtx.set1
    Does (.mtxPassStart n) s fun e => e.mem = s.d.mem ∧
      SameRegs s.d e (fun r => r = MTX_PASS_COUNT n ∨ r = MTX_STRETCH_COUNT n) ∧
      e.fld (MTX_PASS_COUNT_PASSES n) = (s.d.fld (MTX_PASS_COUNT_PASSES n) + 1) % 2 ^ 32 ∧
      (e.quire n).mtx.queue = rest ∧
      ∃ p, (e.quire n).mtx.passes = q.mtx.passes ++ [p] ∧ p.id = o.id ∧ p.tiles = [o.tile] ∧
        ∀ m c, m < 8 → c < 32 →
          let sum := colSum o.desc.fmtA 4
            (fun k => some (decodeAs o.desc.fmtA (q.leafNat g (o.desc.aOff + m * o.desc.lda + k * 2) 2)))
            (fun k => some (set.val k c)) fun _ v => v
          (o.tile * 256 + (m * 32 + c), bits32 (if o.acc then
            (fp32.decode (q.mtx.accElem o.tile (m * 32 + c)).toNat).add sum else sum)) ∈ p.out) ∧
  (∀ n p rest s, s.d.alive = true → (s.d.quire n).mtx.passes = p :: rest → (p.out.map Prod.fst).Nodup →
    Does (.mtxPassResult n) s fun e => e.regs = s.d.regs ∧ e.mem = s.d.mem ∧ (e.quire n).mtx.passes = rest ∧
      (∀ y ∈ p.out, Store.get zeroWord y.1 (e.quire n).mtx.acc = y.2) ∧
      ∀ i, i ∉ p.out.map Prod.fst →
        Store.get zeroWord i (e.quire n).mtx.acc = Store.get zeroWord i (s.d.quire n).mtx.acc) ∧
  (∀ n o rest g s, s.d.alive = true → (s.d.quire n).mtx.queue = o :: rest → o.kind = .mstore →
    (s.d.quire n).tilesReady o = true → (s.d.quire n).gathering o.task o.gath = some g → g.pages.Nodup →
    o.desc.cplx = false → o.desc.rnd < 2 → o.desc.fmtA ∈ [0, 1, 2, 3, 4, 6] →
    colsOf o.desc * esize o.desc.fmtA ≤ o.desc.lda →
    o.desc.aOff + (rowsOf o.desc - 1) * o.desc.lda + colsOf o.desc * esize o.desc.fmtA ≤ g.size →
    Does (.mtxAccReadStart n) s fun e => e.regs = s.d.regs ∧ e.mem = s.d.mem ∧ (e.quire n).mtx.queue = rest ∧
      ∀ m c, m < rowsOf o.desc → c < colsOf o.desc →
        (e.quire n).leafBytes g (o.desc.aOff + m * o.desc.lda + c * esize o.desc.fmtA) (esize o.desc.fmtA) =
          leBytes (esize o.desc.fmtA) (convert 0 o.desc.fmtA o.desc.rnd 0
            ((s.d.quire n).mtx.accElem (o.tile + m / 8 * blocksN o.desc + c / 32) (m % 8 * 32 + c % 32)).toNat)) ∧
  (∀ n o rest t s, s.d.alive = true → (s.d.quire n).mtx.queue = o :: rest → o.kind = .gsend →
    (s.d.quire n).tilesReady o = true → s.d.task o.task = some t → s.d.holdsRank t.part = true →
    s.d.eng.pwr.stopping = false →
    Does (.mtxAccReadStart n) s fun e => e.mem = s.d.mem ∧ (e.quire n).mtx.queue = rest ∧
      ∃ y, e.eng.red.sends = s.d.eng.red.sends ++ [y] ∧ y.part = t.part ∧ y.step = t.step ∧ y.attempt = t.attempt ∧
        y.tile = field o.gdesc 0 32 ∧ y.mb = field o.gdesc 32 12 ∧ e.fabHas pkReduce y.dest y.bytes ∧
        ∃ data, y.bytes = redHeader t.step t.attempt s.d.ownRank y.tile y.mb (nfCount data) (field o.gdesc 48 16)
            (field o.gdesc 80 16) (checksum data) ++ data ∧
          data.length = 4096 ∧ ∀ i, i < 2048 → (data.drop (2 * i)).take 2 = leBytes 2 (bf16.round 0 0
            (fp32.decode ((s.d.quire n).mtx.accElem (o.tile + i / 256) (i % 256)).toNat))))

/-! ### Igtik: the vector engine (12, 13) -/

/-- A vector instruction enters the queue of four with its references and count as they stand, and its threads go on
(R284, R393 to R397, R405, R418). The instruction at the head starts where no earlier one still writes what it uses: a
VOP of one block computes its function for every element, a VLD takes the elements from the leaf. At its end its results
stand in the engine, its scalar in the uniform register, and the elements of a VST in the leaf (R398, R401 to R405,
R407, R412). -/
def Obligations.VectorEnginesAct : Prop :=
  (∀ sel w x s,
    ∀ k ∈ [(9, 0, Instr.vop sel w, VKind.vop), (9, 1, .vcompress sel w, .vcompress), (9, 2, .vexpand sel w, .vexpand),
        (9, 3, .vred sel w, .vred), (9, 4, .vld sel w, .vld), (9, 5, .vst sel w, .vst), (11, 0, .dmask sel w, .dmask)],
    let q := s.d.quire x.n
    let n := if field w.ext 0 13 = 0 then x.vc.toNat else field w.ext 0 13
    let z := if field w.ext 19 2 = 0 then 4 else 2
    let refs := (x.read w.dst).toNat
    IssuesLong s.d sel k.1 k.2.1 w x → 1 ≤ n → n ≤ 4096 →
    (∀ a, k.2.2.2.leafRef refs x.va.toNat = some a → a % z = 0 ∧
      x.g.refuses x.n a (n * z) (s.d.cluster x.n) = false) →
    Does k.2.2.1 s fun e => e.mem = s.d.mem ∧ SameRegs s.d e thrRegs ∧ CollPassed e x ∧
      ∃ o, (e.quire x.n).vec = { q.vec with queue := q.vec.queue ++ [o] } ∧ o.kind = k.2.2.2 ∧ o.n = n ∧
        o.func = field w.ext 13 6 ∧ o.width = field w.ext 19 2 ∧ o.rnd = field w.ext 21 2 ∧ o.d = refs ∧
        o.a = x.va.toNat ∧ o.b = x.vb.toNat ∧ o.task = x.task.id ∧ o.gath = x.g.num ∧ o.slot = x.slot) ∧
  ((∀ n o rest s, s.d.alive = true → (s.d.quire n).vec.queue = o :: rest → (s.d.quire n).vec.free o = true →
    let q := s.d.quire n
    let m := fun i => Store.get zeroByte i q.vec.mem
    (o.kind = .vop → o.width = 0 → 1 ≤ o.n → o.n ≤ 64 → refScalar o.d = false →
      Does (.vecInstructionStart n) s fun e => e.mem = s.d.mem ∧
        SameRegs s.d e (fun r => r = VEC_INSTR_COUNT n ∨ r = VEC_BUSY_COUNT n) ∧ (e.quire n).vec.queue = rest ∧
        e.fld (VEC_INSTR_COUNT_PIPELINE n) = (s.d.fld (VEC_INSTR_COUNT_PIPELINE n) + 1) % 2 ^ 32 ∧
        ∃ r, (e.quire n).vec.run = q.vec.run ++ [r] ∧ r.op = o ∧
          r.out = (List.range o.n).flatMap fun i => vput o.d (vzD o.func 4) i
            (vopFn o.func 0 o.rnd (genWord o.key (o.base + BitVec.ofNat 32 i)) (vsrc m o.a o.aval (vzA o.func 4) i)
              (if vOne o.func then 0 else vsrc m o.b o.bval 4 i)
              (if vReadsD o.func then vsrc m o.d o.dval (vzD o.func 4) i else 0))) ∧
    (∀ home g a, n < 1536 → o.kind = .vld → s.d.vecLeaf n o = some (home, g, a) →
      (∀ r ∈ q.vec.run, q.before o.slot o.cmask r.op.slot r.op.cmask r.op.id = true →
        ∀ y ∈ s.d.vstStores n r.op, y.meets (spanAt (home, g) a (o.n * o.z)) = false) →
      Does (.vecInstructionStart n) s fun e => e.mem = s.d.mem ∧ SameRegs s.d e thrRegs ∧ (e.quire n).vec.queue = rest ∧
        ∃ r, (e.quire n).vec.run = q.vec.run ++ [r] ∧ r.op = o ∧
          r.out = (List.range o.n).flatMap fun i => vput o.d o.z i ((s.d.quire home).leafNat g (a + i * o.z) o.z))) ∧
  (∀ n id r s, s.d.alive = true → (s.d.quire n).vec.run.find? (fun r => r.op.id == id) = some r →
    (r.op.kind ≠ .vst → Does (.vecInstructionEnd n id) s fun e => e.regs = s.d.regs ∧ e.mem = s.d.mem ∧
      (∀ y ∈ (e.quire n).vec.run, y.op.id ≠ id) ∧
      ((r.out.map Prod.fst).Nodup → ∀ y ∈ r.out, Store.get zeroByte y.1 (e.quire n).vec.mem = y.2) ∧
      (∀ i, i ∉ r.out.map Prod.fst →
        Store.get zeroByte i (e.quire n).vec.mem = Store.get zeroByte i (s.d.quire n).vec.mem) ∧
      ∀ u v c, r.uni = [(u, v)] → s.d.caravan n r.op.slot = some c → c.task = r.op.task →
        ∃ c', e.caravan n r.op.slot = some c' ∧ c'.uni u = v) ∧
    (∀ home g a, r.op.kind = .vst → s.d.vecLeaf n r.op = some (home, g, a) → g.pages.Nodup →
      r.leaf.length = r.op.n * r.op.z →
      Does (.vecInstructionEnd n id) s fun e => e.mem = s.d.mem ∧ (∀ y ∈ (e.quire n).vec.run, y.op.id ≠ id) ∧
        (e.quire home).leafBytes g a r.leaf.length = r.leaf)))

/-! ### Igtik: the access engine (09) -/

/-- ACOPY between device memory and a leaf moves every byte and stays outstanding until ACOPY_DONE updates its counter;
ASTART starts an idle context at row 0 with its counter at 0, ASTOP stops one (R305 to R312, R320). -/
def Obligations.CopiesAndStreamsStart : Prop :=
  (∀ sel w x v s, IssuesLong s.d sel 10 0 w x → x.va.toNat % 16 = 0 → x.descriptor s.d 16 = some v → s.d.taskView x.task.id = none → x.task.epoch = none →
    let p := x.task.part
    let src := field v 0 48
    let dst := field v 64 48
    let n := field v 112 16 * 16
    src % 16 = 0 → dst % 16 = 0 → n ≠ 0 →
    (∀ home g, field v 48 2 = 1 → field v 50 2 = 0 → s.d.inMemory p src n = true →
      s.d.poisoned p none src n = false → s.d.leafAt x.n x.g dst n true = some (home, g) → g.pages.Nodup →
      Does (.acopy sel w) s fun e => SameMem s.d e ∧ CollPassed e x ∧
        (e.quire home).leafBytes g (laOff dst) n = s.d.bytes (memKey p src) n ∧
        ∃ c, (e.quire x.n).copies = (s.d.quire x.n).copies ++ [c] ∧ c.home = home ∧ c.counter = field w.ext 0 5 ∧
          c.task = x.task.id ∧ c.slot = x.slot) ∧
    (∀ home g, field v 48 2 = 0 → field v 50 2 = 1 → s.d.leafAt x.n x.g src n true = some (home, g) →
      s.d.inMemory p dst n = true → FreeLines s.d p dst n →
      Does (.acopy sel w) s fun e => CollPassed e x ∧
        MemHolds e (memKey p dst) ((s.d.quire home).leafBytes g (laOff src) n) ∧ SameMemBut s.d e (memKey p dst) n ∧
        ∃ c, (e.quire x.n).copies = (s.d.quire x.n).copies ++ [c] ∧ c.home = x.n ∧ c.counter = field w.ext 0 5 ∧
          c.task = x.task.id ∧ c.slot = x.slot)) ∧
  (∀ n id c s, s.d.alive = true → (s.d.quire n).copies.find? (fun c => c.id == id) = some c → s.d.busy id = false →
    (s.d.quire c.home).bound c.counter = false → (s.d.quire c.home).gaths ≠ [] →
    Does (.acopyDone n id) s fun e => e.mem = s.d.mem ∧ SameRegs s.d e (· = THR_ACC_COUNT n) ∧
      (∀ y ∈ (e.quire n).copies, y.id ≠ id) ∧
      (e.quire c.home).counter c.counter = ((s.d.quire c.home).counter c.counter + 1) % 2 ^ 32 ∧
      e.fld (THR_ACC_COUNT_COPIES n) = (s.d.fld (THR_ACC_COUNT_COPIES n) + 1) % 2 ^ 32) ∧
  (∀ sel w x v s, x.va.toNat % 16 = 0 →
    let c := field w.ext 5 4
    let units := field v 52 12
    let leaf := field v 104 19
    (IssuesLong s.d sel 10 1 w x → x.descriptor s.d 16 = some v →
      field v 0 48 % 64 = 0 → leaf % 64 = 0 → units ≠ 0 → field v 64 16 ≠ 0 →
      leaf + 2 ^ field v 123 3 * (units * 64) ≤ x.g.size →
      Does (.astart sel w) s fun e => e.mem = s.d.mem ∧ SameRegs s.d e thrRegs ∧
        (e.quire x.n).counter (16 + c) = 0 ∧
        (e.quire x.n).stream c = { noStream c with
          state := 1, task := x.task.id, gath := x.g.num, slot := x.slot, mem := field v 0 48, host := bit v 48
          write := bit v 49, units := units, rows := field v 64 16, stride := field v 80 24, leaf := leaf
          logSlots := field v 123 3 } ∧
        ∃ k, e.caravan x.n x.slot = some k ∧
          ∀ l ∈ x.c.path x.pc, k.thread l = .active ∧ k.pc l = x.c.pc l + 16) ∧
    (IssuesLong s.d sel 10 2 w x → Does (.astop sel w) s fun e => e.mem = s.d.mem ∧ SameRegs s.d e thrRegs ∧ CollPassed e x ∧
      (e.quire x.n).stream c = (let st := (s.d.quire x.n).stream c
                                if st.state = 1 then { st with state := 2 } else st)))

/-- A stream of device memory at work: a row is fetched while it stands within the rows of its window, lands byte for
byte in its slot and moves the counter, or is dropped when its access is refused and no thread waits for it; a filled
row of a write stream is written and counted; a stopped stream that is empty becomes idle (R313 to R322). -/
def Obligations.StreamsMove : Prop :=
  ∀ n c s, s.d.alive = true →
    let q := s.d.quire n
    let st := q.stream c
    (st.state = 1 → st.write = false → st.host = false → st.next < st.rows →
      st.next < 2 ^ st.logSlots + min st.released (q.counter (16 + c)) →
      Does (.streamRowFetch n c) s fun e => e.regs = s.d.regs ∧ e.mem = s.d.mem ∧
        (e.quire n).stream c = { st with next := st.next + 1, flight := st.flight ++ [(st.next, s.d.eng.nextTask)] }) ∧
    (∀ r f t g, st.flight.find? (fun x => x.1 == r) = some f → s.d.busy f.2 = false → st.write = false → st.host = false →
      s.d.task st.task = some t → st.state = 1 → s.d.rowRefused st r = none → s.d.taskView st.task = none →
      s.d.hostBusy t.part (st.rowAt r) (st.units * 64) = [] → q.gathering st.task st.gath = some g → g.pages.Nodup →
      st.slotAt r + st.units * 64 ≤ g.size →
      Does (.streamRowLand n c r .clean) s fun e => SameMem s.d e ∧
        (e.quire n).leafBytes g (st.slotAt r) (st.units * 64) =
          s.d.bytes (memKey t.part (st.rowAt r)) (st.units * 64) ∧
        (∀ x ∈ ((e.quire n).stream c).flight, x.1 ≠ r) ∧
        (st.ahead = [] → q.counter (16 + c) = r → (e.quire n).counter (16 + c) = (r + 1) % 2 ^ 32)) ∧
    (∀ r f, st.flight.find? (fun x => x.1 == r) = some f → s.d.busy f.2 = false → st.write = false → r ∉ st.demand →
      (s.d.rowRefused st r).isSome = true → st.state = 1 → (∀ i ∈ st.dropped ++ [r], q.awaited (16 + c) ≤ i) →
      Does (.prefetchDrop n c r) s fun e => e.mem = s.d.mem ∧ SameRegs s.d e (· = THR_ACC_DROP n) ∧
        e.fld (THR_ACC_DROP_PREFETCH n) = (s.d.fld (THR_ACC_DROP_PREFETCH n) + 1) % 2 ^ 32 ∧
        ((e.quire n).stream c).dropped = st.dropped ++ [r] ∧ (∀ x ∈ ((e.quire n).stream c).flight, x.1 ≠ r) ∧
        (e.quire n).counter (16 + c) = q.counter (16 + c)) ∧
    (∀ t g, st.state = 1 → st.write = true → st.host = false → st.filled = true →
      s.d.task st.task = some t → s.d.taskView st.task = none → q.gathering st.task st.gath = some g →
      s.d.storeHolds n st.slot 0xFFFFFFFF [spanAt (n, g) (st.slotAt st.next) (st.units * 64)] = false →
      s.d.accessRefused st st.next = none → FreeLines s.d t.part (st.rowAt st.next) (st.units * 64) →
      Does (.streamRowWrite n c) s fun e =>
        MemHolds e (memKey t.part (st.rowAt st.next)) (q.leafBytes g (st.slotAt st.next) (st.units * 64)) ∧
        SameMemBut s.d e (memKey t.part (st.rowAt st.next)) (st.units * 64) ∧
        ((e.quire n).stream c).next = st.next + 1 ∧
        ((e.quire n).stream c).flight = st.flight ++ [(st.next, s.d.eng.nextTask)]) ∧
    (∀ r f, st.flight.find? (fun x => x.1 == r) = some f → s.d.busy f.2 = false → st.write = true →
      Does (.streamRowAccepted n c r) s fun e => e.mem = s.d.mem ∧ SameRegs s.d e (· = THR_ACC_COUNT n) ∧
        e.fld (THR_ACC_COUNT_ROWS n) = (s.d.fld (THR_ACC_COUNT_ROWS n) + 1) % 2 ^ 32 ∧
        (∀ x ∈ ((e.quire n).stream c).flight, x.1 ≠ r) ∧
        (st.ahead = [] → q.counter (16 + c) = r → (e.quire n).counter (16 + c) = (r + 1) % 2 ^ 32)) ∧
    (st.state = 2 → st.flight = [] → Does (.streamDrained n c) s fun e => e.regs = s.d.regs ∧ e.mem = s.d.mem ∧
      (e.quire n).stream c = noStream c ∧ (e.quire n).counter (16 + c) = q.counter (16 + c))

/-! ### Training and proof epochs (13, 14) -/

/-- PGATHER of tiles whose position is not admitted is held, one with RELEASE moves its release count, and one of a tile of
the own rank copies it and is outstanding until PGATHER_DONE updates its counter (R431 to R434). -/
def Obligations.GathersAreAdmitted : Prop :=
  (∀ sel w x v s, IssuesLong s.d sel 11 1 w x → x.va.toNat % 16 = 0 → x.descriptor s.d 16 = some v → field v 106 22 = 0 →
    let p := x.task.part
    let dir := field v 104 1
    let dst := field v 64 40 * 4096
    (field v 32 16 = 0 → bit v 105 = true → ∀ ecc, Does (.pgather sel ⟨w, ecc⟩) s fun e => e.mem = s.d.mem ∧ CollPassed e x ∧
      SameRegs s.d e (fun o => o = TRN_GATHER p ∨ thrRegs o) ∧
      e.fld (relField p dir) = (s.d.fld (relField p dir) + 1) % 2 ^ 16) ∧
    (field v 32 16 ≠ 0 → bit v 105 = false → s.d.task x.task.id = some x.task →
      field v 0 32 + field v 32 16 ≤ s.d.fld (TRN_SHARD_SLOTS_SLOTS p) * s.d.shardRanks p →
      s.d.inMemory p dst (field v 32 16 * 4096) = true → (∀ g ∈ (s.d.quire x.n).gathers, g.id ≠ s.d.eng.nextTask) →
      let far := (field v 48 16 + 65536 - s.d.fld (relField p dir)) % 65536
      (s.d.prefetchLayers p < far → ∀ ecc, Does (.pgather sel ⟨w, ecc⟩) s fun e => e.mem = s.d.mem ∧ CollPassed e x ∧
        SameRegs s.d e thrRegs ∧ ∃ g, (e.quire x.n).gathers = (s.d.quire x.n).gathers ++ [g] ∧ g.started = false ∧
          g.first = field v 0 32 ∧ g.tiles = field v 32 16 ∧ g.pos = field v 48 16 ∧ g.dst = dst ∧ g.dir = dir ∧
          g.counter = field w.ext 0 5) ∧
      (far ≤ s.d.prefetchLayers p → field v 32 16 = 1 → x.task.epoch = none → s.d.ownTile p (field v 0 32) = true →
        let src := s.d.ownTileAt p (field v 0 32)
        s.d.inMemory p src 4096 = true → s.d.hostBusy p src 4096 = [] → s.d.poisoned p none src 4096 = false →
        FreeLines s.d p dst 4096 →
        Does (.pgather sel ⟨w, .clean⟩) s fun e => CollPassed e x ∧ SameMemBut s.d e (memKey p dst) 4096 ∧
          MemHolds e (memKey p dst) (s.d.bytes (memKey p src) 4096) ∧
          ∃ g, (e.quire x.n).gathers = (s.d.quire x.n).gathers ++ [g] ∧ g.started = true))) ∧
  (∀ n id g t s, s.d.alive = true → (s.d.quire n).gathers.find? (fun g => g.id == id && !g.started) = some g →
    s.d.task g.task = some t → s.d.taskView id = none → s.d.gatherAdmitted t.part g = true → g.tiles = 1 →
    s.d.ownTile t.part g.first = true →
    let src := s.d.ownTileAt t.part g.first
    s.d.inMemory t.part src 4096 = true → s.d.hostBusy t.part src 4096 = [] →
    s.d.poisoned t.part none src 4096 = false → FreeLines s.d t.part g.dst 4096 →
    Does (.pgatherAdmit n ⟨id, .clean⟩) s fun e => MemHolds e (memKey t.part g.dst) (s.d.bytes (memKey t.part src) 4096) ∧
      SameMemBut s.d e (memKey t.part g.dst) 4096 ∧ ∀ y ∈ (e.quire n).gathers, y.id = id → y.started = true) ∧
  (∀ n id g s, s.d.alive = true → (s.d.quire n).gathers.find? (fun g => g.id == id) = some g → g.started = true →
    s.d.busy id = false → (s.d.quire n).bound g.counter = false → (s.d.quire n).gaths ≠ [] →
    Does (.pgatherDone n id) s fun e => e.regs = s.d.regs ∧ e.mem = s.d.mem ∧
      (∀ y ∈ (e.quire n).gathers, y.id ≠ id) ∧
      (e.quire n).counter g.counter = ((s.d.quire n).counter g.counter + 1) % 2 ^ 32)

/-- PROOF.OPEN takes a free slot for a local epoch; PROOF.COMMIT frees it and installs the lines its version wrote, and
no others; PROOF.DISCARD frees it and changes no memory; either has completed at EPOCH_INSTALL_DONE (R441, R444, R448,
R450, R452 to R454). A write of TRN_STEP or TRN_LS is taken at a quiesce point only: it sets its fields, and a step
record of kind SOFTWARE is written where TRN_RECORD.EN is 1 (R425, R439). -/
def Obligations.EpochsAndTrainingWrites : Prop :=
  ((∀ sel w x s, jobWide x.va.toNat = false →
    let p := x.task.part
    let ep := x.va.toNat
    (∀ k, IssuesLong s.d sel 12 0 w x → s.d.epochOpen p ep = false →
      (if s.d.holdsRank p then [1, 2, 3] else [0, 1, 2, 3]).find? (fun k => !s.d.flag (TRN_PROOF_SLOT_VALID p k)) = some k →
      Does (.proofOpen sel w) s fun e => e.mem = s.d.mem ∧ CollPassed e x ∧
        SameRegs s.d e (fun o => o = TRN_PROOF_SLOT p k ∨ thrRegs o) ∧
        e.flag (TRN_PROOF_SLOT_VALID p k) = true ∧ e.fld (TRN_PROOF_SLOT_EPOCH p k) = ep) ∧
    (∀ k v, IssuesLong s.d sel 12 1 w x → s.d.epochSlot p ep = some k →
      s.d.eng.dune.versions.filter (fun v => v.part == p && v.epoch == ep) = [v] → FreeLines s.d p (v.gran * 4096) 4096 →
      Does (.proofCommit sel w) s fun e => CollPassed e x ∧ e.flag (TRN_PROOF_SLOT_VALID p k) = false ∧
        e.fld (TRN_PROOF_COUNT_COMMITS p) = (s.d.fld (TRN_PROOF_COUNT_COMMITS p) + 1) % 2 ^ 32 ∧
        (p, ep) ∈ e.eng.dune.closing ∧ SameMemBut s.d e (memKey p (v.gran * 4096)) 4096 ∧
        ∀ i, i < 4096 → e.byte (memKey p (v.gran * 4096 + i)) =
          if bit v.mask (i / 64) then Store.get zeroByte i v.data else s.d.byte (memKey p (v.gran * 4096 + i))) ∧
    (∀ k, IssuesLong s.d sel 12 2 w x → s.d.epochSlot p ep = some k →
      Does (.proofDiscard sel w) s fun e => SameMem s.d e ∧ e.flag (TRN_PROOF_SLOT_VALID p k) = false ∧
        (p, ep) ∈ e.eng.dune.closing ∧ ∀ v ∈ e.eng.dune.versions, ¬ (v.part = p ∧ v.epoch = ep))) ∧
  (∀ p ep s, s.d.alive = true → (p, ep) ∈ s.d.eng.dune.closing → s.d.eng.axl.home = [] →
    Does (.epochInstallDone p ep) s fun e => e.regs = s.d.regs ∧ e.mem = s.d.mem ∧
      e.eng = { s.d.eng with dune := { s.d.eng.dune with closing := s.d.eng.dune.closing.erase (p, ep) } })) ∧
  (∀ p v s, s.d.alive = true → p < 64 → ∀ k ∈ [(Instr.trnStepWrite p v, TRN_STEP p), (.trnLsWrite p v, TRN_LS p)],
    let a := s.d.fld (TRN_RECORD_ADDR p) * 64
    (s.d.quiesced p = false → exec k.1 s = .next s) ∧
    (s.d.quiesced p = true → s.d.flag (TRN_RECORD_EN p) = false → Does k.1 s fun e => e.mem = s.d.mem ∧ e.eng = s.d.eng ∧
      SameRegs s.d e (· = k.2) ∧
      (k.2 = TRN_STEP p → e.fld (TRN_STEP_STEP p) = v % 2 ^ 32 ∧ e.fld (TRN_STEP_ATTEMPT p) = 0) ∧
      (k.2 = TRN_LS p → e.fld (TRN_LS_EXP p) = v % 64 ∧ e.fld (TRN_LS_CLEAN p) = v / 2 ^ 32 % 2 ^ 32)) ∧
    (s.d.quiesced p = true → s.d.flag (TRN_RECORD_EN p) = true → s.d.inMemory p a 64 = true → FreeLines s.d p a 64 →
      Does k.1 s fun e => SameMemBut s.d e (memKey p a) 64 ∧
        MemHolds e (memKey p a) (leBytes 4 (e.fld (TRN_STEP_STEP p)) ++ leBytes 2 (e.fld (TRN_STEP_ATTEMPT p)) ++
          leBytes 1 (e.fld (TRN_LS_EXP p)) ++ leBytes 1 decSoftware ++ leBytes 4 (e.fld (TRN_LS_CLEAN p))) ∧
        (k.2 = TRN_STEP p → e.fld (TRN_STEP_STEP p) = v % 2 ^ 32 ∧ e.fld (TRN_STEP_ATTEMPT p) = 0) ∧
        (k.2 = TRN_LS p → e.fld (TRN_LS_EXP p) = v % 64 ∧ e.fld (TRN_LS_CLEAN p) = v / 2 ^ 32 % 2 ^ 32)))

/-! ### Gradient reduction and step control (16, 17) -/

/-- A packet of the current attempt and micro-batch 0 that passes its check replaces its leaf and is answered ACCEPTED;
an answer but EARLY frees the packet at its sender, which sends an unanswered one again unchanged (R498, R506, R507,
R512, R513). A tree whose leaves are complete is evaluated into its root; ROOT_WRITE then writes the header and counts
ROOT_TALLY; an owner whose trees are done and whose gate is open reports to the job manager (R504, R505, R508 to R510,
R519). -/
def Obligations.ReductionsAndTrees : Prop :=
  ((∀ port k p s, Arrives s.d port { k with kind := pkReduce } p →
    let h := k.data.take 64
    let data := k.data.drop 64
    let j := rhRank h
    let t := rhTile h
    let leaf := s.d.leafAtSlot p (s.d.redSlot p t) j
    let head := s.d.leafHeadAt p (s.d.redSlot p t) j
    k.data.length = 4160 → (rhStep h, rhAttempt h) = s.d.tag p → rhMb h = 0 → 0 < s.d.accumCount p →
    j ∉ s.d.dropSet p → j < s.d.shardRanks p → s.d.redOwner p t = s.d.redRank p →
    s.d.inMemory p leaf 4096 = true → s.d.inMemory p head 64 = true → leaf + 4096 ≤ head →
    tagOlder (rhStep (s.d.leafHead p (s.d.redSlot p t) j), rhAttempt (s.d.leafHead p (s.d.redSlot p t) j))
      (s.d.tag p) = true →
    checksum data = rhSum h → nfCount data = rhNf h → FreeLines s.d p leaf 4096 → FreeLines s.d p head 64 →
    s.d.eng.pwr.stopping = false →
    Does (.reduce port k) s fun e => MemHolds e (memKey p leaf) data ∧
      MemHolds e (memKey p head) (redHeader (rhStep h) (rhAttempt h) j t 1 (nfCount data) (rhSamples h) 0 (checksum data)) ∧
      (∀ i, ¬ (memKey p leaf ≤ i ∧ i < memKey p leaf + 4096) → ¬ (memKey p head ≤ i ∧ i < memKey p head + 64) →
        e.byte i = s.d.byte i) ∧
      e.fld (RED_COUNT_A_ACCEPTED p) = (s.d.fld (RED_COUNT_A_ACCEPTED p) + 1) % 2 ^ 32 ∧
      (s.d.holdsRank p = true → e.fabHas pkReduceAnswer k.src (leBytes 4 (rhStep h) ++ leBytes 2 (rhAttempt h) ++
        leBytes 2 j ++ leBytes 4 t ++ leBytes 2 0 ++ leBytes 1 raAccepted ++ [0]))) ∧
  (∀ port k p x s, Arrives s.d port { k with kind := pkReduceAnswer } p →
    s.d.eng.red.sends.find? (fun x => x.part == p && x.step == leAt k.data 0 4 && x.attempt == leAt k.data 4 2 &&
      x.tile == leAt k.data 8 4 && x.mb == leAt k.data 12 2) = some x →
    (leAt k.data 14 1 ≠ 4 → Does (.reduceAnswer port k) s fun e => e.mem = s.d.mem ∧
      e.eng.red.sends = s.d.eng.red.sends.erase x ∧
      (x.signal = true → (s.d.quire x.quire).bound x.counter = false → (s.d.quire x.quire).gaths ≠ [] →
        (e.quire x.quire).counter x.counter = ((s.d.quire x.quire).counter x.counter + 1) % 2 ^ 32)) ∧
    (leAt k.data 14 1 = 4 → exec (.reduceAnswer port k) s = .next s)) ∧
  (∀ p step attempt tile mb x s, s.d.alive = true → s.d.holdsRank p = true → s.d.eng.pwr.stopping = false →
    s.d.eng.red.sends.find? (fun x => x.part == p && x.step == step && x.attempt == attempt && x.tile == tile &&
      x.mb == mb) = some x →
    Does (.reduceResend p step attempt tile mb) s fun e => e.mem = s.d.mem ∧ e.eng.red = s.d.eng.red ∧
      e.fabHas pkReduce x.dest x.bytes)) ∧
  ((∀ p tile t x s, s.d.alive = true → p < 64 →
    s.d.eng.red.trees.find? (fun t => t.part == p && t.tile == tile && t.stage == 0 && (t.step, t.attempt) == s.d.tag p) =
      some t →
    (∀ j, j < padded (s.d.shardRanks p) → s.d.leafEmpty p j = true ∨ (s.d.leafComplete p t.slot j = true ∧
      s.d.hostBusy p (s.d.leafAtSlot p t.slot j) 4096 = [])) →
    s.d.redPoolUsed p + 4160 * s.d.redLevels p ≤ s.d.redPool p →
    rootOf (s.d.redLevels p) (s.d.leafNodes p t.slot) = .full x →
    s.d.inMemory p (s.d.rootAt p t.slot) 4096 = true → s.d.inMemory p (s.d.rootHeadAt p t.slot) 64 = true →
    FreeLines s.d p (s.d.rootAt p t.slot) 4096 →
    Does (.treeEvaluate p tile) s fun e => MemHolds e (memKey p (s.d.rootAt p t.slot)) x.data ∧
      SameMemBut s.d e (memKey p (s.d.rootAt p t.slot)) 4096 ∧
      ∃ u ∈ e.eng.red.trees, u.part = p ∧ u.tile = tile ∧ u.stage = 1 ∧ u.id = s.d.eng.nextTask) ∧
  (∀ p tile t s, s.d.alive = true → p < 64 →
    s.d.eng.red.trees.find? (fun t => t.part == p && t.tile == tile && t.stage == 1 && (t.step, t.attempt) == s.d.tag p) =
      some t →
    s.d.busy t.id = false → t.head.length = 64 → FreeLines s.d p (s.d.rootHeadAt p t.slot) 64 →
    Does (.rootWrite p tile) s fun e => MemHolds e (memKey p (s.d.rootHeadAt p t.slot)) t.head ∧
      SameMemBut s.d e (memKey p (s.d.rootHeadAt p t.slot)) 64 ∧
      e.fld (RED_COUNT_C_ROOTS p) = (s.d.fld (RED_COUNT_C_ROOTS p) + 1) % 2 ^ 32 ∧
      (rhNf t.head ≠ 0 → e.flag (RED_STATUS_NONFINITE_ROOT p) = true) ∧
      ∀ n, t.tally ≠ 0xFFFF → s.d.relTally p t.tally = some n → n < 16384 →
        e.fld (TLY_VALUE_VALUE n) = (s.d.fld (TLY_VALUE_VALUE n) + 1) % 2 ^ 32) ∧
  (∀ p jm s, s.d.alive = true → s.d.rankPart = some p → s.d.jobManagerRank = some jm → s.d.eng.pwr.stopping = false →
    s.d.eng.red.closed = true → s.d.eng.red.ownerDone = false → s.d.eng.red.area = false → s.d.gateOpen p = true →
    let ts := s.d.eng.red.trees.filter fun t => t.part == p && (t.step, t.attempt) == s.d.tag p
    (∀ t ∈ ts, t.stage = 2 ∧ rhNf t.head = 0) →
    Does .ownerDoneSend s fun e => e.mem = s.d.mem ∧ e.eng.red = { s.d.eng.red with ownerDone := true } ∧
      e.windowHas pkOwnerDone jm 0 0 (leBytes 4 (s.d.tag p).1 ++ leBytes 2 (s.d.tag p).2 ++ leBytes 2 s.d.ownRank ++
        leBytes 1 0 ++ leBytes 4 ts.length)))

/-- The job manager: a RANK_DONE of the current attempt is noted and arms the deadline; the last one closes the sends; the
OWNER_DONE that completes the set without a finding commits the step; the deadline repeats it with the next ATTEMPT; once
every rank has joined, INIT opens the first attempt (R422, R518 to R520, R558, R560). -/
def Obligations.ManagerDecides : Prop :=
  (∀ port k p s, Arrives s.d port { k with kind := pkRankDone } p → s.d.reportCounts k.data = true →
    leAt k.data 6 2 ∉ s.d.eng.mgr.ranksDone → Does (.rankDone port k) s fun e => SameMem s.d e ∧
      e.eng.mgr.ranksDone = s.d.eng.mgr.ranksDone ++ [leAt k.data 6 2] ∧ e.eng.mgr.armed = true ∧
      ((∀ r ∈ s.d.outside, r = leAt k.data 6 2 ∨ r ∈ s.d.eng.mgr.ranksDone) → e.eng.mgr.closed = true)) ∧
  (∀ port k p s, Arrives s.d port { k with kind := pkOwnerDone } p → s.d.reportCounts k.data = true →
    s.d.rankPart = some p → leAt k.data 8 1 % 8 = 0 → s.d.lsMode p ≠ 1 →
    (∀ r ∈ s.d.outside, r = leAt k.data 6 2 ∨ ∃ x ∈ s.d.eng.mgr.ownersDone, x.1 = r) →
    (∀ x ∈ s.d.eng.mgr.ownersDone, bit x.2 0 = false) → s.d.nextDrops.length ≤ 224 → s.d.pairIn s.d.nextDrops = none →
    let m := s.d.eng.mgr
    Does (.ownerDone port k) s fun e => e.eng.mgr.step = (m.step + 1) % 2 ^ 32 ∧ e.eng.mgr.attempt = 0 ∧
      e.eng.mgr.exp = (if s.d.lsGrowth p ≤ m.clean + 1 then min (m.exp + 1) 63 else m.exp) ∧
      e.eng.mgr.clean = (if s.d.lsGrowth p ≤ m.clean + 1 then 0 else (m.clean + 1) % 2 ^ 32) ∧
      e.eng.mgr.ranksDone = [] ∧ e.eng.mgr.ownersDone = [] ∧ e.eng.mgr.drop = s.d.nextDrops ∧ e.eng.mgr.armed = false) ∧
  (∀ s, s.d.alive = true → s.d.mgrRuns = true → s.d.eng.mgr.armed = true → s.d.fld RES_SILENT_LIMIT = 0 →
    s.d.nextDrops.length ≤ 224 → s.d.pairIn s.d.nextDrops = none →
    Does .stepDeadline s fun e => e.eng.mgr.step = s.d.eng.mgr.step % 2 ^ 32 ∧
      e.eng.mgr.attempt = (s.d.eng.mgr.attempt + 1) % 2 ^ 16 ∧ e.eng.mgr.exp = s.d.eng.mgr.exp ∧
      e.eng.mgr.clean = s.d.eng.mgr.clean % 2 ^ 32 ∧ e.eng.mgr.armed = false ∧ e.eng.mgr.drop = s.d.nextDrops) ∧
  (∀ p s, s.d.alive = true → s.d.rankPart = some p → s.d.initReady = true → s.d.nextDrops.length ≤ 224 →
    s.d.pairIn s.d.nextDrops = none → Does .initBroadcast s fun e => e.eng.mgr.started = true ∧
      e.eng.mgr.step = s.d.fld (TRN_STEP_STEP p) ∧ e.eng.mgr.attempt = 0 ∧ e.eng.mgr.exp = s.d.fld (TRN_LS_EXP p) ∧
      e.eng.mgr.clean = s.d.fld (TRN_LS_CLEAN p) ∧ e.eng.mgr.epoch = (s.d.eng.mgr.epoch + 1) % 2 ^ 31) ∧
  (∀ port k p s, Arrives s.d port { k with kind := pkJoin } p → s.d.jobManagerRank = some s.d.ownRank → s.d.isJobMgr = true →
    (leAt k.data 0 8 ≠ s.d.jobId ∨ leAt k.data 16 8 ≠ s.d.jobCheck → Does (.join port k) s fun e => SameMem s.d e ∧
      e.eng.mgr = { s.d.eng.mgr with refused := s.d.eng.mgr.refused + 1 }) ∧
    (leAt k.data 0 8 = s.d.jobId → leAt k.data 16 8 = s.d.jobCheck → leAt k.data 8 2 < s.d.rankCount →
      leAt k.data 8 2 ∉ s.d.eng.mgr.drop → s.d.eng.mgr.started = false → Does (.join port k) s fun e => SameMem s.d e ∧
        (leAt k.data 8 2, leAt k.data 10 2) ∈ e.eng.mgr.joined)) ∧
  (∀ port k p s, Arrives s.d port { k with kind := pkFaultRecord } p → s.d.isJobMgr = true → s.d.filling = false →
    let b := fit 64 k.data
    (leAt b 2 2 = fkUnreachable → leAt b 32 2 ≠ 0xFFFF → (∀ x ∈ s.d.eng.mgr.unreach, x.1 ≠ leAt b 32 2) →
      Does (.faultRecord port k) s fun e => SameMem s.d e ∧
        e.eng.mgr = { s.d.eng.mgr with unreach := s.d.eng.mgr.unreach ++ [(leAt b 32 2, k.src)] }) ∧
    (leAt b 2 2 ∉ [fkUnreachable, fkFillDone, fkFillAborted] → sevRank ≤ leAt b 1 1 →
      s.d.recordCounts k.src (leAt b 4 2) (leAt b 30 2) = true → leAt b 4 2 < s.d.rankCount →
      leAt b 4 2 ∉ s.d.eng.mgr.failed → leAt b 4 2 ∉ s.d.eng.mgr.drop → s.d.eng.mgr.started = false →
      Does (.faultRecord port k) s fun e => SameMem s.d e ∧
        e.eng.mgr = { s.d.eng.mgr with failed := s.d.eng.mgr.failed ++ [leAt b 4 2] }))

/-- A rank: DECISION for its current attempt sets STEP, ATTEMPT, EXP and CLEAN and the drop set, and one for another attempt
is counted STALE; SENDS_CLOSED of the attempt is noted; HALT stops the partition (R426, R427, R519, R560, R561). -/
def Obligations.RankFollowsManager : Prop :=
  (∀ port k p s, Arrives s.d port { k with kind := pkDecision } p → s.d.rankPart = some p →
    (s.d.installs p k.data = true → Does (.decision port k) s fun e =>
      e.fld (TRN_STEP_STEP p) = dcNextStep k.data ∧ e.fld (TRN_STEP_ATTEMPT p) = dcNextAttempt k.data ∧
      e.fld (TRN_LS_EXP p) = dcExp k.data % 64 ∧ e.fld (TRN_LS_CLEAN p) = dcClean k.data ∧
      e.eng.red.drop = dcDrops k.data ∧ e.flag FAB_STATUS_JOINED = true) ∧
    (s.d.installs p k.data = false → Does (.decision port k) s fun e => SameMem s.d e ∧
      e.fld (TRN_COUNT_C_STALE p) = (s.d.fld (TRN_COUNT_C_STALE p) + 1) % 2 ^ 32 ∧
      s.d.tag p = e.tag p ∧ e.eng.red = s.d.eng.red)) ∧
  (∀ port k p s, Arrives s.d port { k with kind := pkSendsClosed } p → (leAt k.data 0 4, leAt k.data 4 2) = s.d.tag p →
    Does (.sendsClosed port k) s fun e => SameMem s.d e ∧ e.eng.red = { s.d.eng.red with closed := true }) ∧
  (∀ port k p s, Arrives s.d port { k with kind := pkHalt } p →
    Does (.halt port k) s fun e => SameMem s.d e ∧ e.fld (PART_CTRL_STOP p) = 1 ∧
      e.flag (TRN_PROOF_SLOT_VALID p 0) = false)

/-! ### The optical fabric (17) -/

/-- Flits and training of a port: a good flit in sequence is accepted and its ACK noted, a bad one leaves a NAK to be
sent; a NAK or a timeout replays what is held from the flit named on; a port trains to UP, MISMATCH or OVER_BUDGET
apart, goes DOWN where no lane group passes, and trains again on command; the TC0 load of a window is kept (R526 to
R531, R550). A lost port is fenced and counted, and what it had not delivered is gone from it; a port reset trains the
port again; the loss of a laser module fences its eight ports, its light coming back is only shown; one record says so
where no packet has to be resent (R94, R525, R532 to R534). -/
def Obligations.PortsCarryAndAreLost : Prop :=
  (∀ j s, s.d.alive = true → j < 32 →
    (s.d.portUp j = true →
      (∀ seq ack ty credits crTc crVl peer, Does (.fabricFlit j false seq ack ty credits crTc crVl peer) s fun e =>
        e.regs = s.d.regs ∧ e.mem = s.d.mem ∧ (e.port j).nak.isSome = true ∧ (e.port j).seqRx = (s.d.port j).seqRx) ∧
      (∀ seq ack credits crTc crVl peer, seq % 65536 = (s.d.port j).seqRx →
        Does (.fabricFlit j true seq ack 1 credits crTc crVl peer) s fun e => e.mem = s.d.mem ∧
          SameRegs s.d e (· = FAB_PORT_TRAFFIC j) ∧ (e.port j).nak = none ∧
          (e.port j).seqRx = ((s.d.port j).seqRx + 1) % 65536 ∧ (e.port j).ack = ack % 65536 ∧
          (∀ h ∈ (s.d.port j).held, seqLe h.seq (ack % 65536) = false → h ∈ (e.port j).held) ∧
          e.fld (FAB_PORT_TRAFFIC_RX_FLITS j) = (s.d.fld (FAB_PORT_TRAFFIC_RX_FLITS j) + 1) % 2 ^ 32) ∧
      (∀ seq, Does (.fabricNak j seq) s fun e => e.mem = s.d.mem ∧
        (∀ h ∈ (e.port j).held, seqLe h.seq ((seq + 65535) % 65536) = false) ∧
        ∀ h ∈ (s.d.port j).held, seqLe h.seq ((seq + 65535) % 65536) = false → seqLe (seq % 65536) h.seq = true →
          0 < h.flits → { h with sends := h.sends + 1 } ∈ (e.port j).held ∧
            e.fld (FAB_PORT_LINK_REPLAYS j) = (s.d.fld (FAB_PORT_LINK_REPLAYS j) + 1) % 2 ^ 16) ∧
      (∀ h rest, (s.d.port j).held = h :: rest → 0 < h.flits → h.flits ≤ 32768 →
        Does (.fabricReplayTimeout j) s fun e => e.mem = s.d.mem ∧ { h with sends := h.sends + 1 } ∈ (e.port j).held ∧
          e.fld (FAB_PORT_LINK_REPLAYS j) = (s.d.fld (FAB_PORT_LINK_REPLAYS j) + 1) % 2 ^ 16) ∧
      ∀ tc0 cap, cap ≠ 0 → Does (.tc0LoadWindow j tc0 cap) s fun e => e.eng = s.d.eng ∧ e.mem = s.d.mem ∧
        SameRegs s.d e (· = FAB_PORT_TC0 j) ∧ e.fld (FAB_PORT_TC0_LOAD j) = min 1000 (tc0 * 1000 / cap) ∧
        e.fld (FAB_PORT_TC0_OVER j) = (s.d.fld (FAB_PORT_TC0_OVER j) + if cap < tc0 * 8 then 1 else 0) % 2 ^ 32) ∧
    (s.d.portFenced j = false → 6 ≤ s.d.fld PWR_BOOT_STATUS_PHASE →
      (s.d.fld (FAB_PORT_STATUS_STATE j) ∈ [0, 1] → ∀ width slot port mgr job rank rtt,
        Does (.portTrained j width slot port mgr job rank rtt) s fun e => SameMem s.d e ∧
          bit (e.fld PWR_PORT_BUSY_PORTS) j = false ∧
          (width % 4 = 0 → e.fld (FAB_PORT_STATUS_STATE j) = 0) ∧
          (width % 4 ≠ 0 → e.fld (FAB_PORT_STATUS_WIDTH j) = width % 4 ∧
            e.fld (FAB_PORT_STATUS_PEER_RANK j) = rank % 65536 ∧ (e.port j).peer = job ∧
            e.fld (FAB_PORT_STATUS_STATE j) =
              (if 4 ≤ j ∧ (slot % 8 ≠ s.d.eng.pwr.straps.slot ^^^ (j / 4) ∨ port % 32 ≠ j) then 4
               else if s.d.retryBudget < rtt * 5 then 5 else 2))) ∧
      (s.d.fld (FAB_PORT_STATUS_STATE j) ∈ [0, 3] → Does (.portTrainRetry j) s fun e => e.eng = s.d.eng ∧ e.mem = s.d.mem ∧
        e.fld (FAB_PORT_STATUS_STATE j) = 1 ∧ SameRegs s.d e fun o => o = FAB_PORT_STATUS j ∨ ringRegs o))) ∧
  ((∀ j s, s.d.alive = true → j < 32 → s.d.portUp j = true → Does (.linkLoss j) s fun e => SameMem s.d e ∧
    e.fld (FAB_PORT_STATUS_STATE j) = 3 ∧ e.fld (FAB_PORT_STATUS_WIDTH j) = 0 ∧ e.flag (FAB_PORT_STATUS_LOSS j) = true ∧
    e.portFenced j = true ∧ e.fld (FAB_PORT_LOSS_LOSSES j) = (s.d.fld (FAB_PORT_LOSS_LOSSES j) + 1) % 2 ^ 32 ∧
    (e.port j).held = [] ∧ (e.port j).wait = [] ∧
    ((∀ x ∈ s.d.eng.fab.e2e, x.port ≠ some j) → (∀ x ∈ s.d.eng.fab.reqs, x.port ≠ some j) → Recorded s.d e fkLinkLoss)) ∧
  (∀ j s, s.d.alive = true → j < 32 → s.d.portFenced j = false →
    (bit (s.d.fld PWR_PORT_BUSY_PORTS) j = false → Does (.portReset (2 ^ j)) s fun e => SameMem s.d e ∧
      e.fld (FAB_PORT_STATUS_STATE j) = 1 ∧ bit (e.fld PWR_PORT_BUSY_PORTS) j = true ∧
      e.fld PWR_EVENT_COUNT_PORT = min (s.d.fld PWR_EVENT_COUNT_PORT + 1) 0xFFFF ∧
      (e.port j).held = [] ∧ (e.port j).wait = []) ∧
    (bit (s.d.fld PWR_PORT_BUSY_PORTS) j = true → exec (.portReset (2 ^ j)) s = .next s)) ∧
  (∀ m s, s.d.alive = true → m < 4 →
    (bit (s.d.fld FAB_LASER_PRESENT) m = true → Does (.laserLoss m) s fun e => SameMem s.d e ∧
      e.fld FAB_LASER_PRESENT = s.d.fld FAB_LASER_PRESENT - 2 ^ m ∧
      (s.d.eng.fab.e2e = [] → s.d.eng.fab.reqs = [] → Recorded s.d e fkLaserLoss) ∧
      ∀ i, i < 8 → e.portFenced (8 * m + i) = true ∧
        (s.d.portUp (8 * m + i) = true → e.fld (FAB_PORT_STATUS_STATE (8 * m + i)) = 3)) ∧
    Does (.laserLightRestored m) s fun e => e.eng = s.d.eng ∧ e.mem = s.d.mem ∧ SameRegs s.d e (· = FAB_LASER) ∧
      e.fld FAB_LASER_PRESENT = s.d.fld FAB_LASER_PRESENT ||| 2 ^ m))

/-- The packets that bring data write it where they say, and nothing else: WRITE its bytes, ACCUMULATE the sums of elements,
MIRROR the lines of its mask, FILL_DATA those of them that are not fresh, READ_DATA and GATHER_DATA what was asked for
(R548, R552, R554, R589, R596). -/
def Obligations.DataPacketsWrite : Prop :=
  (∀ port k p s, Arrives s.d port { k with kind := pkWrite } p → k.data.length ≤ 4096 →
    s.d.inMemory p k.addr k.data.length = true → FreeLines s.d p k.addr k.data.length →
    Does (.write port k) s fun e => MemHolds e (memKey p k.addr) k.data ∧
      SameMemBut s.d e (memKey p k.addr) k.data.length ∧ (s.d.eng.pwr.stopping = false → e.fabHas pkAck k.src [])) ∧
  (∀ port k p s, Arrives s.d port { k with kind := pkAccumulate } p → k.data.length ≤ 4096 → k.poison = false →
    let w := if bit k.arg 0 then 8 else 4
    k.addr % w = 0 → k.data.length % w = 0 → s.d.inMemory p k.addr k.data.length = true →
    FreeLines s.d p k.addr k.data.length → s.d.poisoned p none k.addr k.data.length = false →
    Does (.accumulate port k) s fun e => SameMemBut s.d e (memKey p k.addr) k.data.length ∧
      (s.d.eng.pwr.stopping = false → e.fabHas pkAck k.src []) ∧
      ∀ i, i < k.data.length / w → leNat (e.bytes (memKey p (k.addr + i * w)) w) =
        (leNat (s.d.bytes (memKey p (k.addr + i * w)) w) + leAt k.data (i * w) w) % 2 ^ (8 * w)) ∧
  (∀ x ∈ [(pkMirror, Instr.mirror), (pkFillData, .fillData)], ∀ port k p s,
    Arrives s.d port { k with kind := x.1 } p → maskFits k = true → s.d.inMemory p k.addr 4096 = true →
    FreeLines s.d p k.addr 4096 →
    let mask := leAt k.data 0 8
    let kept := if x.1 = pkMirror then 0 else Store.get zeroNat (k.addr / 4096) s.d.eng.dune.fresh
    Does (x.2 port k) s fun e => SameMemBut s.d e (memKey p k.addr) 4096 ∧
      (∀ y ∈ maskedLines mask (k.data.drop 16), bit kept y.1 = false → MemHolds e (memKey p (k.addr + y.1 * 64)) y.2) ∧
      ∀ i, i < 4096 → bit mask (i / 64) = false ∨ bit kept (i / 64) = true →
        e.byte (memKey p (k.addr + i)) = s.d.byte (memKey p (k.addr + i))) ∧
  (∀ port k p r s, Arrives s.d port { k with kind := pkReadData } p →
    s.d.eng.fab.reqs.find? (fun r => r.tag == leAt k.data 0 8 && !r.gather && r.pkt.dest == k.src) = some r → k.arg ≠ 0 →
    s.d.taskView r.task = none →
    let data := (k.data.drop 8).take r.pkt.arg
    FreeLines s.d r.part r.dst data.length →
    Does (.readData port k) s fun e => MemHolds e (memKey r.part r.dst) data ∧
      SameMemBut s.d e (memKey r.part r.dst) data.length ∧ ∀ y ∈ e.eng.fab.reqs, y.tag ≠ r.tag) ∧
  (∀ port k p r s, Arrives s.d port { k with kind := pkGatherData } p →
    s.d.eng.fab.reqs.find? (fun r => r.tag == leAt k.data 0 8 && r.gather && r.pkt.dest == k.src) = some r →
    (∃ kv ∈ s.d.eng.quires, ∃ g ∈ kv.2.gathers, g.id = r.task) → k.data.length = 4104 → k.poison = false →
    s.d.taskView r.task = none → FreeLines s.d r.part r.dst 4096 →
    Does (.gatherData port k) s fun e => MemHolds e (memKey r.part r.dst) (k.data.drop 8) ∧
      SameMemBut s.d e (memKey r.part r.dst) 4096 ∧ ∀ y ∈ e.eng.fab.reqs, y.tag ≠ r.tag)

/-- The packets that ask or tell: READ_REQ and GATHER_REQ are answered with the bytes asked for, TALLY_ADD adds to its
tally, DOORBELL moves its TAIL, SERVICE waits for its service; an E2E_ACK releases its packet, and one not acknowledged is
resent and counted (R433, R543, R547, R552, R554). -/
def Obligations.RequestPacketsAnswer : Prop :=
  (∀ port k p s, Arrives s.d port { k with kind := pkReadReq } p → 1 ≤ k.arg → k.arg ≤ 4096 →
    s.d.inMemory p k.addr k.arg = true → s.d.hostBusy p k.addr k.arg = [] → s.d.eng.pwr.stopping = false →
    Does (.readReq port k .clean) s fun e => e.mem = s.d.mem ∧
      e.fabHas pkReadData k.src (fit 8 k.data ++ s.d.bytes (memKey p k.addr) k.arg)) ∧
  (∀ port k p o s, Arrives s.d port { k with kind := pkGatherReq } p → s.d.servedAt p k.addr = some o →
    s.d.hostBusy p o 4096 = [] → s.d.eng.pwr.stopping = false →
    Does (.gatherReq port k .clean) s fun e => e.mem = s.d.mem ∧
      e.fabHas pkGatherData k.src (fit 8 k.data ++ s.d.bytes (memKey p o) 4096)) ∧
  (∀ port k p t s, Arrives s.d port { k with kind := pkTallyAdd } p → s.d.relTally p k.addr = some t → t < 16384 →
    Does (.remoteIncrement port k) s fun e => SameMem s.d e ∧
      e.fld (TLY_VALUE_VALUE t) = (s.d.fld (TLY_VALUE_VALUE t) + k.arg) % 2 ^ 32) ∧
  (∀ port k p s, Arrives s.d port { k with kind := pkDoorbell } p → s.d.formed p = true →
    k.addr < queueCount s.d.eng.cfg.base p →
    let q := firstQueue s.d.eng.cfg.base p + k.addr
    let tail := k.arg % 65536
    s.d.queuePart q = some p → s.d.pageOpen p = true → s.d.queueKind q ∈ [1, 3, 4] → s.d.ringEnabled q = true →
    tail < s.d.ringSize q → s.d.ringSize q ≤ 65536 →
    (tail + s.d.ringSize q - s.d.fld (QUE_TAIL_TAIL q)) % s.d.ringSize q + s.d.ringPending q + 1 ≤ s.d.ringSize q →
    Does (.remoteDoorbell port k) s fun e => SameMem s.d e ∧ e.fld (QUE_TAIL_TAIL q) = tail) ∧
  (∀ port k p s, Arrives s.d port { k with kind := pkService } p → k.bySlot = true → s.d.eng.svcs = [] →
    Does (.service port k) s fun e => e.regs = s.d.regs ∧ e.mem = s.d.mem ∧
      e.eng = { s.d.eng with inbox := s.d.eng.inbox ++ [{ k with kind := pkService, part := p }] }) ∧
  (∀ port k p x s, Arrives s.d port { k with kind := pkAck } p →
    s.d.eng.fab.e2e.find? (fun x => x.pkt.bySlot == k.bySlot && x.pkt.dest == k.src && x.pkt.seq == k.arg &&
      x.pkt.incarnation == k.addr % 65536) = some x →
    bit k.addr 16 = false → x.pkt.kind ≠ pkMirror → x.pkt.kind ≠ pkFillData →
    (∀ y ∈ s.d.eng.fab.blocked, ¬ (y.1.bySlot = x.pkt.bySlot ∧ y.1.dest = x.pkt.dest)) →
    Does (.e2eAck port k) s fun e => e.regs = s.d.regs ∧ e.mem = s.d.mem ∧
      e.eng = { s.d.eng with fab := { s.d.eng.fab with
        e2e := s.d.eng.fab.e2e.erase x, unrouted := s.d.eng.fab.unrouted.erase x.pkt } }) ∧
  (∀ bySlot dest key x s, s.d.alive = true → s.d.eng.pwr.stopping = false →
    s.d.eng.fab.e2e.find? (fun x => x.pkt.bySlot == bySlot && x.pkt.dest == dest && x.pkt.seq == key) = some x →
    Does (.e2eResend false bySlot dest key) s fun e => SameMem s.d e ∧
      e.fld FAB_COUNT_B_RESENDS = (s.d.fld FAB_COUNT_B_RESENDS + 1) % 2 ^ 32 ∧
      e.fabHas x.pkt.kind x.pkt.dest x.pkt.data)

/-- The job time base: a period begins with PINGs to the devices that this manager aligns, a PING is answered with the
raw stamp, a PONG completes its exchange and the eighth brings OFFSET, and the first OFFSET aligns a device; a manager
that is not heard from is reported (R564 to R566). -/
def Obligations.TimeBaseAligns : Prop :=
  (∀ s, s.d.alive = true → s.d.alignees ≠ [] → Does .alignmentPeriod s fun e => e.mem = s.d.mem ∧
    e.eng.align = { s.d.eng.align with period := (s.d.eng.align.period + 1) % 2 ^ 32, exchanges := [] } ∧
    ∀ r ∈ s.d.alignees, (s.d.nearPort r).isSome = true → s.d.eng.pwr.stopping = false →
      e.fabHas pkPing r (leBytes 8 s.d.alignedStamp)) ∧
  (∀ port k p s, Arrives s.d port { k with kind := pkPing } p → (s.d.nearPort k.src).isSome = true →
    s.d.eng.pwr.stopping = false → Does (.ping port k) s fun e => e.mem = s.d.mem ∧
      e.fabHas pkPong k.src (fit 8 k.data ++ leBytes 8 s.d.now ++ leBytes 8 s.d.now) ∧
      (s.d.alignerOf s.d.ownRank = some k.src → e.eng.align.seen = s.d.now)) ∧
  (∀ port k p s, Arrives s.d port { k with kind := pkPong } p → k.src ∈ s.d.alignees → k.addr < 8 →
    (∀ y ∈ s.d.eng.align.exchanges, ¬ (y.peer = k.src ∧ y.num = k.addr)) →
    let mine := s.d.eng.align.exchanges.filter fun y => y.peer == k.src
    Does (.pong port k) s fun e => e.mem = s.d.mem ∧
      (∃ x, e.eng.align.exchanges = s.d.eng.align.exchanges ++ [x] ∧ x.peer = k.src ∧ x.num = k.addr ∧
        x.rtt = stampDiff s.d.alignedStamp (leAt k.data 0 8) - stampDiff (leAt k.data 16 8) (leAt k.data 8 8) ∧
        x.twice = stampDiff (leAt k.data 0 8) (leAt k.data 8 8) + stampDiff s.d.alignedStamp (leAt k.data 16 8)) ∧
      (mine.length = 7 → k.src ∈ e.eng.mgr.aligned) ∧ (mine.length ≠ 7 → e.eng.mgr = s.d.eng.mgr)) ∧
  (∀ port k p s, Arrives s.d port { k with kind := pkOffset } p → s.d.isJobMgr = false →
    s.d.alignerOf s.d.ownRank = some k.src → s.d.flag FAB_STATUS_ALIGNED = false →
    Does (.offset port k) s fun e => e.mem = s.d.mem ∧
      e.fld FAB_STAMP_OFFSET_TCYCLES = leAt k.data 0 8 ∧ e.flag FAB_STATUS_ALIGNED = true ∧
      e.fld FAB_SYNC_LAST_RTT = leAt k.data 8 4 % 65536 ∧
      SameRegs s.d e fun o => o = FAB_SYNC ∨ o = FAB_STATUS ∨ o = FAB_STAMP_OFFSET) ∧
  (∀ s, s.d.alive = true → s.d.hasRanks = true → s.d.isJobMgr = false → (s.d.alignerOf s.d.ownRank).isSome = true →
    Does .managerLost s fun e => SameMem s.d e ∧ Recorded s.d e fkManagerLost)

/-! ### Faulty units and the upkeep of the dunes (15, 18) -/

/-- A unit that disagrees with its twin or hangs is fenced under one record: a quire is emptied, an array's weights are
zeroed, the 16 channels of a dune base and a port are fenced, a spine router stops the device (R571 to R576). Scrubbing
counts what it corrects and its passes, and fences the channel of a line that it cannot correct; a dune is HOT above 85
degrees until it is below 83, and its reading is kept; a refresh changes nothing (R96, R476 to R480; logs 9, 10). -/
def Obligations.FaultyUnitsAndDunes : Prop :=
  (∀ go ∈ [Instr.sequencerMismatch, Instr.unitWatchdog], ∀ s, s.d.alive = true →
    (∀ n, n < 1536 → s.d.quireFenced n = false → Does (go 0 n) s fun e =>
      e.quireFenced n = true ∧ e.quire n = Quire.idle ∧
      ((s.d.quire n).gaths = [] → SameMem s.d e ∧ Recorded s.d e fkSeqQuire)) ∧
    (∀ n a, n < 1536 → a < 4 → s.d.arrayFenced n a = false → Does (go 1 (n * 4 + a)) s fun e =>
      e.arrayFenced n a = true ∧
      ((∀ j, s.d.fenced (unitArray n j) = false) → (s.d.quire n).gaths = [] → SameMem s.d e ∧ Recorded s.d e fkSeqArray ∧
        e.quireFenced n = false ∧ (e.quire n).mtx.set0 = WSet.zero ∧ (e.quire n).mtx.set1 = WSet.zero)) ∧
    (∀ b k, b < 32 → k < 16 → s.d.chanFenced (b * 16 + k) = false → Does (go 2 b) s fun e =>
      (∀ i, i < 16 → e.chanFenced (b * 16 + i) = true) ∧
      (s.d.eng.axl.home = [] → s.d.eng.memWaits = [] → s.d.eng.dune.frozen = [] →
        SameMem s.d e ∧ Recorded s.d e fkSeqDune)) ∧
    (∀ j, j < 32 → s.d.portFenced j = false → Does (go 3 j) s fun e => e.portFenced j = true ∧
      bit (e.fld PWR_PORT_BUSY_PORTS) j = false ∧
      (s.d.portUp j = true → e.fld (FAB_PORT_STATUS_STATE j) = 3 ∧ e.flag (FAB_PORT_STATUS_LOSS j) = true) ∧
      (s.d.eng.tasks = [] → s.d.eng.fab.e2e = [] → s.d.eng.fab.reqs = [] → SameMem s.d e ∧ Recorded s.d e fkSeqPort)) ∧
    ∀ n, Does (go 4 n) s fun e => e.fld PWR_BOOT_STATUS_PHASE = 0xF ∧ SameMem s.d e ∧ Recorded s.d e fkSpine) ∧
  ((∀ c line ecc pass s, s.d.alive = true → c < 512 → s.d.chanFenced c = false →
    let b := c / 16
    Does (.scrubRead c line ecc pass) s fun e =>
      e.fld (DUN_SCRUB_PASSES b) = (s.d.fld (DUN_SCRUB_PASSES b) + bv pass) % 2 ^ 32 ∧
      (ecc ≠ .uncorrectable → e.eng = s.d.eng ∧ e.mem = s.d.mem ∧
        SameRegs s.d e (fun o => o = DUN_ECC_COUNT b (c % 16) ∨ o = DUN_SCRUB b) ∧
        e.fld (DUN_ECC_COUNT_CORRECTED b (c % 16)) =
          (s.d.fld (DUN_ECC_COUNT_CORRECTED b (c % 16)) + bv (ecc == .corrected)) % 2 ^ 32) ∧
      (ecc = .uncorrectable → e.chanFenced c = true ∧ e.flag (DUN_STATUS_UE b) = true ∧
        e.fld (DUN_ECC_LAST_CHANNEL b) = c % 16 ∧ e.fld (DUN_ECC_LAST_LINE b) = line % 2 ^ 25 ∧
        e.flag (DUN_ECC_LAST_VALID b) = true ∧
        e.fld (DUN_ECC_LAST_UE_TOTAL b) = (s.d.fld (DUN_ECC_LAST_UE_TOTAL b) + 1) % 2 ^ 32 ∧
        e.fld (DUN_ECC_COUNT_POISONED b (c % 16)) = (s.d.fld (DUN_ECC_COUNT_POISONED b (c % 16)) + 1) % 2 ^ 32 ∧
        (s.d.eng.axl.home = [] → s.d.eng.memWaits = [] → s.d.eng.tasks = [] → s.d.eng.dune.frozen = [] →
          SameMem s.d e ∧ Recorded s.d e fkUeDune))) ∧
  (∀ b tj s, s.d.alive = true → b < 32 →
    let read := fun e : Dev => e.eng = { s.d.eng with pwr := e.eng.pwr } ∧ e.mem = s.d.mem ∧
      (8 + b, tj % 65536) ∈ e.eng.pwr.temps ∧ SameRegs s.d e fun o => o = DUN_STATUS b ∨ o = PWR_TEMP_MAX
    (85 * 16 < signed 16 tj → Does (.duneHot b tj) s fun e => read e ∧ e.flag (DUN_STATUS_HOT b) = true) ∧
    (signed 16 tj < 83 * 16 → Does (.duneCool b tj) s fun e => read e ∧ e.flag (DUN_STATUS_HOT b) = false)) ∧
  ∀ c b s, exec (.refresh c b) s = .next s)

/-! ### Fills and snapshots (18) -/

/-- A fill of the spare starts where the partner is dropped, a mirror window is open and no fill runs, and says what stands
in the way otherwise; it reads the REMOTE and the LOCAL granules, is DONE when nothing of it waits, and an abort suspends
mirroring (R591, R595 to R598). -/
def Obligations.FillsRun : Prop :=
  ∀ s, s.d.alive = true →
    let windows := [0, 1, 2, 3].any fun k => s.d.flag (RES_MIRROR_LOCAL_EN k)
    let dropped := s.d.rankPart.isSome && s.d.eng.red.drop.contains s.d.partner
    (dropped = false ∨ windows = false ∨ s.d.filling = true → Does .fillStart s fun e => e.eng = s.d.eng ∧
      e.mem = s.d.mem ∧ SameRegs s.d e (· = RES_FILL_STATUS) ∧
      e.fld RES_FILL_STATUS_ERROR = if dropped = false then 1 else if windows = false then 2 else 3) ∧
    (dropped = true → windows = true → s.d.filling = false →
      let all := (ascending s.d.remoteGranules).length + (ascending s.d.localGranules).length
      all < 2 ^ 32 → Does .fillStart s fun e => SameMem s.d e ∧ e.fld RES_FILL_STATUS_STATE = 1 ∧
        e.fld RES_FILL_STATUS_ERROR = 0 ∧ e.fld RES_FILL_STATUS_GRANULES + e.eng.resil.bulk.length = all) ∧
    (s.d.filling = true → Does .fillAbort s fun e => SameMem s.d e ∧ e.fld RES_FILL_STATUS_STATE = 3 ∧
      e.eng.resil.bulk = [] ∧ e.flag RES_STATUS_MIRROR_SUSPENDED = true ∧ Recorded s.d e fkFillAborted ∧
      ∀ m ∈ e.eng.dune.mirrors, m.dest ≠ s.d.partner) ∧
    (s.d.filling = false → exec .fillAbort s = .next s) ∧
    (s.d.rankPart.isSome = true → s.d.fld RES_FILL_STATUS_STATE = 1 → s.d.eng.resil.bulk = [] →
      let waits := (s.d.eng.fab.e2e.map E2E.pkt ++ s.d.eng.fab.blocked.map Prod.fst).any
        fun k => s.d.toPartner k pkFillData || s.d.toPartner k pkMirror
      let behind := waits || s.d.eng.dune.mirrors.any fun m => m.dest == s.d.partner
      (behind = true → exec .fillDone s = .next s) ∧
      (behind = false → Does .fillDone s fun e => SameMem s.d e ∧ e.fld RES_FILL_STATUS_STATE = 2 ∧
        Recorded s.d e fkFillDone))

/-- The snapshot engine: ENABLE trains its port and DRIVES says what answered; ARM waits for the step or freezes the image
at once, unless one of R605 holds; an image that is written is released with its AREA, STEP and record, or abandoned; a
restore needs a quiesce point and writes the LOCAL granules of the newer complete area (R600 to R606, R658). -/
def Obligations.SnapshotsRun : Prop :=
  ∀ s, s.d.alive = true →
    (∀ v, Does (.snapshotEnable v) s fun e => e.mem = s.d.mem ∧ SameRegs s.d e (· = RES_SNAP_CFG) ∧
      e.fld RES_SNAP_CFG_ENABLE = field v 0 1 ∧
      e.fld RES_SNAP_CFG_SPLIT = (if s.d.flag RES_SNAP_CFG_ENABLE then s.d.fld RES_SNAP_CFG_SPLIT else field v 1 1) ∧
      e.fld RES_SNAP_CFG_DRIVES = if bit v 0 then s.d.fld RES_SNAP_CFG_DRIVES else 0) ∧
    (s.d.flag RES_SNAP_CFG_ENABLE = true → ∀ k, Does (.snapshotPortTrained k) s fun e => e.mem = s.d.mem ∧
      SameRegs s.d e (· = RES_SNAP_CFG) ∧
      e.fld RES_SNAP_CFG_DRIVES = if s.d.flag RES_SNAP_CFG_SPLIT then k % 16 else k % 2) ∧
    (s.d.fld RES_SNAP_STATUS_STATE = 3 → Does .snapshotDriveError s fun e => SameMem s.d e ∧
      e.fld RES_SNAP_STATUS_ERROR = 5 ∧ e.fld RES_SNAP_STATUS_STATE = 0) ∧
    (∀ c ∈ [Instr.snapshotCancel, .snapshotDriveError], s.d.fld RES_SNAP_STATUS_STATE = 2 → Does c s fun e =>
      SameMem s.d e ∧ e.fld RES_SNAP_STATUS_ERROR = 5 ∧ e.fld RES_SNAP_STATUS_STATE = 0 ∧
      e.frozenOf (s.d.rankPart.getD 0) = none ∧ Recorded s.d e fkSnapshotAbandoned) ∧
    (s.d.fld RES_SNAP_STATUS_STATE = 1 → Does .snapshotCancel s fun e => e.eng = s.d.eng ∧ e.mem = s.d.mem ∧
      e.fld RES_SNAP_STATUS_STATE = 0) ∧
    ∀ p, s.d.rankPart = some p →
      (∀ t, let drives := popBits (s.d.fld RES_SNAP_CFG_DRIVES) 4
        let error := if s.d.fld RES_SNAP_STATUS_STATE ≠ 0 then 1 else if t < s.d.fld (TRN_STEP_STEP p) then 2
          else if drives = 0 then 4
          else if s.d.fld RES_SNAP_LBAS_LBA / 2 < 1 + ceilDiv s.d.imageGranules drives then 3 else 0
        Does (.snapshotArm t) s fun e => SameMem s.d e ∧ e.fld RES_SNAP_STATUS_ERROR = error ∧
          (error ≠ 0 → e.eng = s.d.eng ∧ SameRegs s.d e (· = RES_SNAP_STATUS)) ∧
          (error = 0 → e.eng.resil.armed = t ∧
            (s.d.trainingActive p = true → e.fld RES_SNAP_STATUS_STATE = 1 ∧ e.eng.dune = s.d.eng.dune) ∧
            (s.d.trainingActive p = false → e.fld RES_SNAP_STATUS_STATE = 2 ∧
              ∃ f ∈ e.eng.dune.frozen, f.part = p ∧ f.step = s.d.fld (TRN_STEP_STEP p) ∧ f.copies = []))) ∧
      (∀ f, s.d.fld RES_SNAP_STATUS_STATE = 2 → s.d.frozenOf p = some f → s.d.eng.pwr.stopping = false →
        Does .snapshotDone s fun e => SameMem s.d e ∧ e.fld RES_SNAP_STATUS_STATE = 0 ∧
          e.fld RES_SNAP_STATUS_AREA = 1 - s.d.fld RES_SNAP_STATUS_AREA ∧
          e.fld RES_SNAP_STATUS_LAST_STEP = f.step % 2 ^ 32 ∧ e.frozenOf p = none ∧
          e.fld RES_SNAP_TIME_COMPLETED = (s.d.fld RES_SNAP_TIME_COMPLETED + 1) % 2 ^ 32 ∧ Recorded s.d e fkSnapshotDone) ∧
      (s.d.quiesced p = false → exec .snapshotRestore s = .next s) ∧
      (s.d.quiesced p = true → s.d.eng.pwr.stopping = false → Does .snapshotRestore s fun e => e.mem = s.d.mem ∧ e.eng = s.d.eng ∧
        if s.d.fld RES_SNAP_STATUS_STATE ≠ 0 then e.fld RES_SNAP_STATUS_ERROR = 1
        else if s.d.fld RES_SNAP_CFG_DRIVES = 0 then e.fld RES_SNAP_STATUS_ERROR = 4
        else e.fld RES_SNAP_STATUS_ERROR = 0 ∧ e.fld RES_SNAP_STATUS_STATE = 3) ∧
      ∀ h0 h1 bs, s.d.fld RES_SNAP_STATUS_STATE = 3 → s.d.eng.pwr.stopping = false →
        (snapSelect h0 h1 = none → Does (.restoreDone h0 h1 bs) s fun e => SameMem s.d e ∧
          e.fld RES_SNAP_STATUS_ERROR = 7 ∧ e.fld RES_SNAP_STATUS_STATE = 0) ∧
        ∀ area h, snapSelect h0 h1 = some (area, h) →
          let gs := s.d.localGranules
          let mine := leAt h 8 8 == s.d.jobId && leAt h 16 2 == s.d.ownRank && leAt h 32 8 == gs.length
          let image := fit (gs.length * 4096) bs
          (mine = false → Does (.restoreDone h0 h1 bs) s fun e => SameMem s.d e ∧ e.fld RES_SNAP_STATUS_ERROR = 8 ∧
            e.fld RES_SNAP_STATUS_STATE = 0) ∧
          (mine = true → gs.Nodup →
            (∀ g ∈ gs, s.d.inMemory p (g * 4096) 4096 = true ∧ FreeLines s.d p (g * 4096) 4096) →
            Does (.restoreDone h0 h1 bs) s fun e => e.fld RES_SNAP_STATUS_STATE = 0 ∧
              e.fld RES_SNAP_STATUS_AREA = area ∧ e.fld RES_SNAP_STATUS_LAST_STEP = leAt h 20 4 ∧
              e.fld RES_SNAP_STATUS_ERROR = (if sm3 image = (h.drop 72).take 32 then 0 else 9) ∧
              ∀ i, i < gs.length → MemHolds e (memKey p (gs.getD i 0 * 4096)) ((image.drop (i * 4096)).take 4096))

/-! ### Security (19) -/

/-- Signers are loaded one at a time and checked in the order of R614 until they are locked; both events, and those that
software extends into MR6 and MR7, are measured; the log is released forward only; a quote captures the registers it asks
for and ends with its signature (R612 to R624; log 28). A load while the Axoft Link is down is checked as a record of
zeros, the model's choice (log 110). -/
def Obligations.SecurityCommandsAct : Prop :=
  ∀ s, s.d.alive = true →
    (s.d.eng.sec.loading = true → Does .signerLoad s fun e => e.eng = s.d.eng ∧ e.mem = s.d.mem ∧
      SameRegs s.d e (· = SEC_SIGNER_STATUS) ∧ e.fld SEC_SIGNER_STATUS_ERROR = 7) ∧
    (s.d.eng.sec.loading = false → (∀ bs, exec (.signerLoadDone bs) s = .next s) ∧
      (s.d.axlUp = true → Does .signerLoad s fun e => e.regs = s.d.regs ∧ e.mem = s.d.mem ∧ e.eng.sec.loading = true) ∧
      (s.d.axlUp = false → Does .signerLoad s fun e => e.mem = s.d.mem ∧ SameRegs s.d e (· = SEC_SIGNER_STATUS) ∧
        e.fld SEC_SIGNER_STATUS_ERROR = s.d.signerError (fit 256 []) ∧ e.eng.sec.signers = s.d.eng.sec.signers)) ∧
    (s.d.eng.sec.loading = true → ∀ bs, bs.length = 256 → let err := s.d.signerError bs
      Does (.signerLoadDone bs) s fun e => e.eng.sec.loading = false ∧ e.fld SEC_SIGNER_STATUS_ERROR = err ∧
        (err ≠ 0 → e.mem = s.d.mem ∧ SameRegs s.d e (· = SEC_SIGNER_STATUS) ∧
          e.eng.sec.signers = s.d.eng.sec.signers) ∧
        (err = 0 → Extended s.d e 2 0x20 (sm3 bs) ∧ e.eng.sec.signers = s.d.eng.sec.signers ++
          [{ id := snId bs, kinds := snKinds bs, pubkey := snKey bs }])) ∧
    (s.d.flag SEC_STATUS_SIGNERS_LOCKED = true → exec .signerLock s = .next s) ∧
    (s.d.flag SEC_STATUS_SIGNERS_LOCKED = false → Does .signerLock s fun e =>
      e.flag SEC_STATUS_SIGNERS_LOCKED = true ∧ Extended s.d e 2 0x21 []) ∧
    (∀ v, let k := field v 0 3
      let ty := field v 16 16
      (bit v 3 = false → exec (.measurementExtend v) s = .next s) ∧
      (bit v 3 = true → Does (.measurementExtend v) s fun e =>
        if (k = 6 ∨ k = 7) ∧ 0x100 ≤ ty then Extended s.d e k ty (s.d.words32 (SEC_EXTEND_DATA 0))
        else e.eng = s.d.eng ∧ e.mem = s.d.mem ∧ SameRegs s.d e (· = SEC_COUNT) ∧
          e.fld SEC_COUNT_VERIFY_FAILS = (s.d.fld SEC_COUNT_VERIFY_FAILS + 1) % 2 ^ 32)) ∧
    (∀ seq, let head := s.d.fld SEC_LOG_HEAD_SEQ
      let ok := decide ((seq + 2 ^ 32 - head) % 2 ^ 32 ≤ s.d.eng.sec.logSeq - head)
      (ok = false → exec (.logRelease seq) s = .next s) ∧
      (ok = true → Does (.logRelease seq) s fun e => e.eng = s.d.eng ∧ e.mem = s.d.mem ∧
        SameRegs s.d e (· = SEC_LOG_HEAD) ∧ e.fld SEC_LOG_HEAD_SEQ = seq % 2 ^ 32)) ∧
    (∀ v, let go := bit v 8 && !s.d.eng.sec.quote.isSome
      (go = false → exec (.quoteRequest v) s = .next s) ∧
      (go = true → Does (.quoteRequest v) s fun e => e.mem = s.d.mem ∧ SameRegs s.d e (· = SEC_QUOTE_STATUS) ∧
        e.flag SEC_QUOTE_STATUS_VALID = false ∧
        (s.d.flag SEC_STATUS_IDENTITY = false → e.fld SEC_QUOTE_STATUS_ERROR = 1 ∧ e.eng = s.d.eng) ∧
        (s.d.flag SEC_STATUS_IDENTITY = true → e.fld SEC_QUOTE_STATUS_ERROR = 0 ∧
          e.eng.sec.quote = some (0, s.d.words32 (SEC_NONCE 0), field v 0 8)))) ∧
    (s.d.eng.sec.quote = none → exec .quoteDone s = .next s) ∧
    ∀ src nonce mask, s.d.eng.sec.quote = some (src, nonce, mask) →
      let q := s.d.eng.sec.captured ++ leBytes 64 (Config.sm2Sign s.d.eng.sec.captured).toNat
      Does .quoteDone s fun e => e.mem = s.d.mem ∧ e.eng.sec.quote = s.d.eng.sec.quoteNext ∧
        e.eng.sec.quoteNext = none ∧
        e.fld SEC_QUOTE_STATUS_COUNT = (s.d.fld SEC_QUOTE_STATUS_COUNT + 1) % 2 ^ 32 ∧
        (src = 0 → e.flag SEC_QUOTE_STATUS_VALID = true ∧
          ∀ i, i < 64 → e.reg (SEC_QUOTE i) = BitVec.ofNat 64 (leAt q (8 * i) 8)) ∧
        (src ≠ 0 → e.eng.recs.answer = mctpHead ++ mcSuccess :: q)

/-! ### Monitoring (20) -/

/-- Latching copies the live counters of a window with a stamp, clearing zeroes them; a sample stands in the partition's
ring, or is counted as lost; a marker stands in its unit's event ring while recording, and the FAULT cause ends (R630 to
R634, R645, R646; log 29). A hang snapshot is taken in arrival order, one request a source, or turned down BUSY,
NOT_IN_SERVICE or RANGE; when its capture ends it stands in the buffer of its source, and the other requests stay in
order (R636 to R643; logs 27, 30). -/
def Obligations.MonitoringRuns : Prop :=
  (∀ s, s.d.alive = true →
    (Does .monClear s fun e => e.eng = s.d.eng ∧ e.mem = s.d.mem ∧
      SameRegs s.d e (offs (MON_UNIT 0 0) (MON_RING_COUNT 0)) ∧
      ∀ o, offs (MON_UNIT 0 0) (MON_RING_COUNT 0) o → e.reg o = resetOf o) ∧
    (∀ p, p < 64 → Does (.monLatch p) s fun e => e.eng = s.d.eng ∧ e.mem = s.d.mem ∧
      e.reg (MON_PART_LATCH_STAMP p) = BitVec.ofNat 64 s.d.obsStamp ∧
      (∀ i k, i < 5 → k < 4 → e.reg (MON_PART_CLASS_L p i k) = s.d.regRead (MON_PART_CLASS p i k)) ∧
      (∀ r, r < 80 → e.reg (MON_PART_REASON_L p r) = s.d.reg (MON_PART_REASON p r)) ∧
      SameRegs s.d e fun o => o = MON_PART_LATCH_STAMP p ∨ offs (MON_PART_CLASS_L p 0 0) (MON_PART_CLASS_L p 5 0) o ∨
        offs (MON_PART_REASON_L p 0) (MON_PART_REASON_L p 80) o) ∧
    (∀ p, p < 64 → Does (.monPartClear p) s fun e => e.eng = s.d.eng ∧ e.mem = s.d.mem ∧
      let live := fun o => offs (MON_PART_CLASS p 0 0) (MON_PART_CLASS_L p 0 0) o ∨
        offs (MON_PART_REASON p 0) (MON_PART_REASON_L p 0) o
      SameRegs s.d e live ∧ ∀ o, live o → e.reg o = resetOf o) ∧
    (∀ p picks, s.d.flag (MON_PC_CFG_EN p) = false → exec (.pcSample p picks) s = .next s) ∧
    (∀ p n c, p < 64 → n < 1536 → s.d.flag (MON_PC_CFG_EN p) = true →
      (∀ m, m < 1536 → ((s.d.quirePart m = some p ∧ s.d.quireActive m = true) ↔ m = n)) →
      (s.d.quire n).nextSample (Store.get zeroNat n s.d.eng.mon.sampled) = some c →
      let size := 2 ^ s.d.fld (MON_PC_CFG_LOG2_ENTRIES p)
      let tail := s.d.fld (MON_PC_TAIL_TAIL p)
      let o := s.d.fld (MON_PC_BASE_BASE p) * 4096 + tail % size * 32
      let full := decide (size ≤ (tail + 2 ^ 32 - s.d.fld (MON_PC_HEAD_HEAD p)) % 2 ^ 32) || !s.d.inMemory p o 32
      (full = true → Does (.pcSample p []) s fun e => e.mem = s.d.mem ∧ SameRegs s.d e (· = MON_PC_LOST p) ∧
        e.fld (MON_PC_LOST_COUNT p) = (s.d.fld (MON_PC_LOST_COUNT p) + 1) % 2 ^ 32) ∧
      (full = false → FreeLines s.d p o 32 → Does (.pcSample p []) s fun e => SameMemBut s.d e (memKey p o) 32 ∧
        MemHolds e (memKey p o) (sampleBytes s.d n c c.lowestPath.1 (s.d.quire n).waitReason c.lowestPath.2) ∧
        e.fld (MON_PC_TAIL_TAIL p) = (tail + 1) % 2 ^ 32)) ∧
    (∀ v, let u := field v 0 11
      let ok := s.d.recording && decide (u ≤ ringMgr)
      (ok = false → exec (.ringMark v) s = .next s) ∧
      (ok = true → let k := s.d.fld (MON_RING_COUNT_WRITTEN u) % 64
        Does (.ringMark v) s fun e => e.eng = s.d.eng ∧ e.mem = s.d.mem ∧ e.reg (MON_RING u (2 * k)) = s.d.eng.stamp ∧
          e.reg (MON_RING u (2 * k + 1)) = BitVec.ofNat 64 (evMark + 65536 * field v 16 48) ∧
          e.fld (MON_RING_COUNT_WRITTEN u) = (s.d.fld (MON_RING_COUNT_WRITTEN u) + 1) % 2 ^ 32 ∧
          SameRegs s.d e fun o => o = MON_RING_COUNT u ∨ offs (MON_RING u 0) (MON_RING (u + 1) 0) o)) ∧
    Does .afterFaultExpiry s fun e => e.regs = s.d.regs ∧ e.mem = s.d.mem ∧
      e.eng = { s.d.eng with mon := { s.d.eng.mon with fault := false } }) ∧
  (∀ s, s.d.alive = true →
    let wait := s.d.eng.mon.hang
    let why := fun src => if src ∈ wait then 1
      else if s.d.fld PWR_BOOT_STATUS_PHASE ≠ 7 ∨ s.d.fld CFG_IMAGE_STATUS_STATE ≠ 0 then 2
      else if s.d.hangFits src = false then 4 else 0
    (Does .hangSnapshot s fun e => e.mem = s.d.mem ∧ e.fld MON_HANG_STATUS_ERROR = why 0 ∧
      (why 0 ≠ 0 → e.eng = s.d.eng ∧ SameRegs s.d e (· = MON_HANG_STATUS)) ∧
      (why 0 = 0 → e.eng.mon.hang = wait ++ [0] ∧ e.fld MON_HANG_STATUS_STATE = if wait = [] then 2 else 1)) ∧
    (∀ p, p < 64 → Does (.partitionHangSnapshot p) s fun e => e.mem = s.d.mem ∧
      e.fld (MON_PHANG_STATUS_ERROR p) = why (p + 1) ∧
      (why (p + 1) ≠ 0 → e.eng = s.d.eng ∧ SameRegs s.d e (· = MON_PHANG_STATUS p)) ∧
      (why (p + 1) = 0 → e.eng.mon.hang = wait ++ [p + 1] ∧
        e.fld (MON_PHANG_STATUS_STATE p) = if wait = [] then 2 else 1)) ∧
    (wait = [] → exec .hangCaptureDone s = .next s) ∧
    (∀ rest, wait = 0 :: rest → let cut := hangCut (hangRecords s.d 0) (s.d.fld MON_HANG_LEN_BYTES / 32)
      Does .hangCaptureDone s fun e => SameMem s.d e ∧ e.fld MON_HANG_STATUS_STATE = 0 ∧
        e.fld MON_HANG_STATUS_ERROR = 0 ∧ e.fld MON_HANG_STATUS_RECORDS = cut.1.length % 2 ^ 32 ∧
        e.flag MON_HANG_STATUS_TRUNCATED = cut.2 ∧ e.eng.mon.hang = rest.filter fun x => x != 0) ∧
    ∀ p rest, wait = (p + 1) :: rest → p < 64 →
      let cut := hangCut (hangRecords s.d (p + 1)) (s.d.fld (MON_PHANG_LEN_BYTES p) / 32)
      let bs := (cut.1.map fun r => r.bytes s.d).flatten
      let o := s.d.fld (MON_PHANG_BASE_BASE p) * 64
      s.d.inMemory p o bs.length = true → FreeLines s.d p o bs.length →
      Does .hangCaptureDone s fun e => MemHolds e (memKey p o) bs ∧ SameMemBut s.d e (memKey p o) bs.length ∧
        e.fld (MON_PHANG_STATUS_STATE p) = 0 ∧ e.fld (MON_PHANG_STATUS_ERROR p) = 0 ∧
        e.flag (MON_PHANG_STATUS_TRUNCATED p) = cut.2 ∧ e.eng.mon.hang = rest.filter fun x => x != p + 1)
end

