-- ==== Sys2Proof/Laws/Bytes.lean ====
section
/-! SUPPORT. The laws of byte strings: a number written in n bytes reads back, and a flit as the device makes it carries its
own CRC. -/

namespace Sys2Proof.Machine

@[simp] theorem leBytes_length (n v : Nat) : (leBytes n v).length = n := by
  induction n generalizing v with
  | zero => rfl
  | succ n ih => simp [leBytes, ih]

@[simp] theorem fit_length (n : Nat) (bs : List Byte) : (fit n bs).length = n := by simp [fit]

theorem leNat_leBytes (n v : Nat) : leNat (leBytes n v) = v % 256 ^ n := by
  induction n generalizing v with
  | zero => simp [leBytes, leNat, Nat.mod_one]
  | succ n ih =>
    have h : (BitVec.ofNat 8 v).toNat = v % 256 := BitVec.toNat_ofNat ..
    rw [leBytes, leNat, ih, h, Nat.pow_succ', Nat.mod_mul]

/-- A byte string of the wanted length stays as it is. -/
theorem fit_append (a b : List Byte) : fit a.length (a ++ b) = a := by simp [fit, List.append_assoc]

/-- A flit that is made carries a CRC that matches (R127, R130). -/
theorem flitGood_flitBytes (h : FlitHead) (slots : List Byte) : flitGood (flitBytes h slots) = true := by
  have hl : (leBytes 8 h.word ++ fit 240 slots).length = 248 := by simp
  have hc : crc64 (leBytes 8 h.word ++ fit 240 slots) % 256 ^ 8 = crc64 (leBytes 8 h.word ++ fit 240 slots) :=
    Nat.mod_eq_of_lt (by simp only [crc64]; exact BitVec.isLt _)
  have hf : fit 248 (flitBytes h slots) = leBytes 8 h.word ++ fit 240 slots := by
    rw [flitBytes, ← hl]
    exact fit_append _ _
  have ha : leAt (flitBytes h slots) 248 8 = crc64 (leBytes 8 h.word ++ fit 240 slots) := by
    rw [leAt, flitBytes, List.drop_left' hl, List.take_of_length_le (by simp), leNat_leBytes, hc]
  simp [flitGood, ha, hf]

end Sys2Proof.Machine
end

