-- ==== Sys2Proof/Laws/Store.lean ====
section
/-! SUPPORT. The laws of the sparse store: a read after a write gives what was written, a write leaves every other key
alone, and every operation keeps the canonical form. -/

namespace Sys2Proof.Machine

variable {α : Type} [DecidableEq α]

theorem Store.get_ins_same (d : Nat → α) (k : Nat) (v : α) (s : Store α)
    (h : ∀ x ∈ s, x.1 ≠ k) : Store.get d k (Store.ins k v s) = v := by
  induction s with
  | nil => simp [Store.ins, Store.get]
  | cons x t ih =>
    obtain ⟨k', v'⟩ := x
    have hk : k' ≠ k := h (k', v') (by simp)
    simp only [Store.ins]
    split
    · simp [Store.get]
    · simp [Store.get, hk, ih fun y hy => h y (by simp [hy])]

theorem Store.get_ins_other (d : Nat → α) (k j : Nat) (v : α) (s : Store α) (h : k ≠ j) :
    Store.get d j (Store.ins k v s) = Store.get d j s := by
  induction s with
  | nil => simp [Store.ins, Store.get, h]
  | cons x t ih =>
    obtain ⟨k', v'⟩ := x
    simp only [Store.ins]
    split
    · simp [Store.get, h]
    · simp [Store.get, ih]

theorem Store.get_drop_out (d : Nat → α) (p : Nat → Bool) (j : Nat) (s : Store α) (h : p j = false) :
    Store.get d j (Store.drop p s) = Store.get d j s := by
  induction s with
  | nil => rfl
  | cons x t ih =>
    obtain ⟨k', v'⟩ := x
    by_cases hp : p k' = true
    · have hk : k' ≠ j := by intro e; subst e; simp [h] at hp
      simpa [Store.drop, hp, Store.get, hk] using ih
    · by_cases hk : k' = j
      · simp [Store.drop, hp, Store.get, hk, h]
      · simpa [Store.drop, hp, Store.get, hk] using ih

theorem Store.get_drop_in (d : Nat → α) (p : Nat → Bool) (j : Nat) (s : Store α) (h : p j = true) :
    Store.get d j (Store.drop p s) = d j := by
  induction s with
  | nil => rfl
  | cons x t ih =>
    obtain ⟨k', v'⟩ := x
    by_cases hp : p k' = true
    · simpa [Store.drop, hp] using ih
    · have hk : k' ≠ j := by intro e; subst e; exact hp h
      simpa [Store.drop, hp, Store.get, hk] using ih

/-- Read after write, same key. -/
@[simp] theorem Store.get_put_same (d : Nat → α) (k : Nat) (v : α) (s : Store α) :
    Store.get d k (Store.put d k v s) = v := by
  unfold Store.put
  split
  · rename_i h; rw [Store.get_drop_in _ _ _ _ (by simp), h]
  · apply Store.get_ins_same
    intro x hx
    simp [Store.drop] at hx
    exact hx.2

/-- Read after write, another key. -/
theorem Store.get_put_other (d : Nat → α) (k j : Nat) (v : α) (s : Store α) (h : k ≠ j) :
    Store.get d j (Store.put d k v s) = Store.get d j s := by
  have hb : (j == k) = false := by simp; exact fun e => h e.symm
  unfold Store.put
  split
  · exact Store.get_drop_out _ _ _ _ hb
  · rw [Store.get_ins_other _ _ _ _ _ h]; exact Store.get_drop_out _ _ _ _ hb

theorem Store.wfFrom_mono (d : Nat → α) (n m : Nat) (s : Store α) (h : m ≤ n)
    (hw : Store.wfFrom d n s = true) : Store.wfFrom d m s = true := by
  cases s with
  | nil => rfl
  | cons x t =>
    obtain ⟨k, v⟩ := x
    simp only [Store.wfFrom, Bool.and_eq_true, decide_eq_true_eq] at hw ⊢
    exact ⟨⟨Nat.le_trans h hw.1.1, hw.1.2⟩, hw.2⟩

theorem Store.wfFrom_drop (d : Nat → α) (p : Nat → Bool) (n : Nat) (s : Store α)
    (hw : Store.wfFrom d n s = true) : Store.wfFrom d n (Store.drop p s) = true := by
  induction s generalizing n with
  | nil => rfl
  | cons x t ih =>
    obtain ⟨k, v⟩ := x
    simp only [Store.wfFrom, Bool.and_eq_true, decide_eq_true_eq] at hw
    by_cases hp : p k = true
    · simpa [Store.drop, hp] using
        ih n (Store.wfFrom_mono d (k + 1) n t (Nat.le_succ_of_le hw.1.1) hw.2)
    · have := ih (k + 1) hw.2
      simp only [Store.drop] at this
      simp [Store.drop, hp, Store.wfFrom, hw.1.1, hw.1.2, this]

theorem Store.wfFrom_ins (d : Nat → α) (n k : Nat) (v : α) (s : Store α) (hn : n ≤ k) (hv : v ≠ d k)
    (hs : ∀ x ∈ s, x.1 ≠ k) (hw : Store.wfFrom d n s = true) :
    Store.wfFrom d n (Store.ins k v s) = true := by
  induction s generalizing n with
  | nil => simp [Store.ins, Store.wfFrom, hn, hv]
  | cons x t ih =>
    obtain ⟨k', v'⟩ := x
    have hk : k' ≠ k := hs (k', v') (by simp)
    simp only [Store.wfFrom, Bool.and_eq_true, decide_eq_true_eq] at hw
    simp only [Store.ins]
    split
    · rename_i hlt
      simp [Store.wfFrom, hn, hv, hw.1.2, hw.2]; omega
    · rename_i hge
      have := ih (k' + 1) (by omega) (fun y hy => hs y (by simp [hy])) hw.2
      simp [Store.wfFrom, hw.1.1, hw.1.2, this]

/-- A write keeps the canonical form. -/
theorem Store.wf_put (d : Nat → α) (k : Nat) (v : α) (s : Store α) (hw : Store.wf d s = true) :
    Store.wf d (Store.put d k v s) = true := by
  unfold Store.put
  split
  · exact Store.wfFrom_drop _ _ _ _ hw
  · rename_i hv
    refine Store.wfFrom_ins d 0 k v _ (Nat.zero_le _) hv ?_ (Store.wfFrom_drop _ _ _ _ hw)
    intro x hx
    simp [Store.drop] at hx
    exact hx.2

/-- Clearing a set of keys keeps the canonical form. -/
theorem Store.wf_drop (d : Nat → α) (p : Nat → Bool) (s : Store α) (hw : Store.wf d s = true) :
    Store.wf d (Store.drop p s) = true :=
  Store.wfFrom_drop d p 0 s hw

end Sys2Proof.Machine
end

