-- ==== Sys2Proof/Laws/State.lean ====
section
/-! SUPPORT. What each primitive change does to each field of the device: one lemma per field per change, so that no
later proof unfolds Act.run; register fields read back what was written, and leave the other fields alone. -/

namespace Sys2Proof.Machine

/-! ### Running acts -/

@[simp] theorem Act.run_skip (d : Dev) : Act.skip.run d = d := rfl
@[simp] theorem Act.run_seq (a b : Act) (d : Dev) : (Act.seq a b).run d = b.run (a.run d) := rfl
@[simp] theorem Act.run_dyn (f : Dev → Act) (d : Dev) : (Act.dyn f).run d = (f d).run d := rfl
@[simp] theorem Act.run_all_nil (d : Dev) : (Act.all []).run d = d := rfl
@[simp] theorem Act.run_all_cons (a : Act) (l : List Act) (d : Dev) :
    (Act.all (a :: l)).run d = (Act.all l).run (a.run d) := rfl
@[simp] theorem Act.run_eng (f : Eng → Eng) (d : Dev) : (Act.eng f).run d = { d with eng := f d.eng } := rfl
@[simp] theorem Act.when_true (a : Act) : Act.when true a = a := rfl
@[simp] theorem Act.when_false (a : Act) : Act.when false a = .skip := rfl
@[simp] theorem Act.each_nil {α : Type} (f : α → Act) : Act.each [] f = .all [] := rfl
@[simp] theorem Act.each_cons {α : Type} (x : α) (l : List α) (f : α → Act) :
    Act.each (x :: l) f = .all (f x :: l.map f) := rfl

/-- Lists of acts run one after the other. -/
theorem Act.run_all_append (l m : List Act) (d : Dev) :
    (Act.all (l ++ m)).run d = (Act.all m).run ((Act.all l).run d) := by
  induction l generalizing d with
  | nil => rfl
  | cons a t ih => simp [ih]

@[simp] theorem Act.run_reg_mem (o : Nat) (v : DWord) (d : Dev) : ((Act.reg o v).run d).mem = d.mem := rfl
@[simp] theorem Act.run_reg_eng (o : Nat) (v : DWord) (d : Dev) : ((Act.reg o v).run d).eng = d.eng := rfl
@[simp] theorem Act.run_forget_mem (a b : Nat) (d : Dev) : ((Act.forget a b).run d).mem = d.mem := rfl
@[simp] theorem Act.run_forget_eng (a b : Nat) (d : Dev) : ((Act.forget a b).run d).eng = d.eng := rfl
@[simp] theorem Act.run_byte_regs (k : Nat) (b : Byte) (d : Dev) : ((Act.byte k b).run d).regs = d.regs := rfl
@[simp] theorem Act.run_byte_eng (k : Nat) (b : Byte) (d : Dev) : ((Act.byte k b).run d).eng = d.eng := rfl
@[simp] theorem Act.run_zero_regs (a b : Nat) (d : Dev) : ((Act.zero a b).run d).regs = d.regs := rfl
@[simp] theorem Act.run_zero_eng (a b : Nat) (d : Dev) : ((Act.zero a b).run d).eng = d.eng := rfl

/-! ### Registers after a change -/

@[simp] theorem Dev.reg_eng (d : Dev) (e : Eng) (o : Nat) : ({ d with eng := e } : Dev).reg o = d.reg o := rfl
@[simp] theorem Dev.reg_mem (d : Dev) (m : List Host.Cell) (o : Nat) : ({ d with mem := m } : Dev).reg o = d.reg o := rfl
@[simp] theorem Dev.byte_eng (d : Dev) (e : Eng) (k : Nat) : ({ d with eng := e } : Dev).byte k = d.byte k := rfl

@[simp] theorem Act.run_reg_same (o : Nat) (v : DWord) (d : Dev) : ((Act.reg o v).run d).reg o = v := by
  simp [Act.run, Dev.reg]

theorem Act.run_reg_other (o o' : Nat) (v : DWord) (d : Dev) (h : o ≠ o') :
    ((Act.reg o v).run d).reg o' = d.reg o' := by
  simp only [Act.run, Dev.reg]; exact Store.get_put_other _ _ _ _ _ h

/-- Read after write of one byte. -/
@[simp] theorem Act.run_byte_same (k : Nat) (b : Byte) (d : Dev) : ((Act.byte k b).run d).byte k = b := by
  simp [Act.run, Dev.byte]

/-- A byte write leaves every other byte alone. -/
theorem Act.run_byte_other (k j : Nat) (b : Byte) (d : Dev) (h : k ≠ j) :
    ((Act.byte k b).run d).byte j = d.byte j := by
  simp only [Act.run, Dev.byte]; exact Store.get_put_other _ _ _ _ _ h

/-- A cleared range reads as zero. -/
theorem Act.run_zero_in (lo hi j : Nat) (d : Dev) (h : lo ≤ j ∧ j < hi) : ((Act.zero lo hi).run d).byte j = 0 := by
  simp only [Act.run, Dev.byte]
  exact Store.get_drop_in _ _ _ _ (by simp [h.1, h.2])

/-- Clearing a range leaves every other byte alone. -/
theorem Act.run_zero_out (lo hi j : Nat) (d : Dev) (h : ¬ (lo ≤ j ∧ j < hi)) :
    ((Act.zero lo hi).run d).byte j = d.byte j := by
  simp only [Act.run, Dev.byte]
  refine Store.get_drop_out _ _ _ _ ?_
  cases hb : (decide (lo ≤ j) && decide (j < hi)) with
  | false => rfl
  | true => simp at hb; exact absurd hb h

/-! ### Fields -/

theorem field_testBit (v lo wd i : Nat) : (field v lo wd).testBit i = (decide (i < wd) && v.testBit (lo + i)) := by
  simp [field, Nat.testBit_mod_two_pow, Nat.testBit_shiftRight]

theorem dword_bit (x i : Nat) (h : i < 64) : (BitVec.ofNat 64 x)[i] = x.testBit i := by
  rw [← BitVec.getLsbD_eq_getElem, BitVec.getLsbD_ofNat]; simp [h]

theorem putField_testBit (w : DWord) (lo wd x i : Nat) :
    (putField w lo wd x).toNat.testBit i =
      (if decide (lo ≤ i) && decide (i < lo + wd) && decide (i < 64) then x.testBit (i - lo) else w.toNat.testBit i) := by
  have key : (putField w lo wd x).getLsbD i =
      (if decide (lo ≤ i) && decide (i < lo + wd) && decide (i < 64) then x.testBit (i - lo) else w.getLsbD i) := by
    by_cases h64 : i < 64
    · by_cases hlo : lo ≤ i
      · by_cases hhi : i < lo + wd
        · have h1 : i - lo < wd := by omega
          have h2 : i - lo < 64 := by omega
          have h3 : ¬ i < lo := by omega
          simp [putField, h64, hlo, hhi, h1, h3, Nat.testBit_two_pow_sub_one, dword_bit]
        · have h1 : ¬ i - lo < wd := by omega
          simp [putField, h64, hhi, h1, Nat.testBit_two_pow_sub_one, dword_bit]
      · have h1 : i < lo := by omega
        simp [putField, h64, hlo, h1]
    · have : w.getLsbD i = false := BitVec.getLsbD_of_ge w i (by omega)
      have h3 : (putField w lo wd x).getLsbD i = false := BitVec.getLsbD_of_ge _ i (by omega)
      simp [h64, this, h3]
  simpa [BitVec.getLsbD] using key

/-- A field reads back what was put into it, cut to its width. -/
theorem field_putField_same (w : DWord) (lo wd x : Nat) (h : lo + wd ≤ 64) :
    field (putField w lo wd x).toNat lo wd = x % 2 ^ wd := by
  apply Nat.eq_of_testBit_eq
  intro i
  rw [field_testBit, Nat.testBit_mod_two_pow, putField_testBit]
  by_cases hi : i < wd
  · have h1 : lo + i < lo + wd := by omega
    have h2 : lo + i < 64 := by omega
    simp [hi, h1, h2]
  · simp [hi]

/-- A field apart from the one written keeps its value. -/
theorem field_putField_other (w : DWord) (lo wd x lo' wd' : Nat) (h : lo' + wd' ≤ lo ∨ lo + wd ≤ lo') :
    field (putField w lo wd x).toNat lo' wd' = field w.toNat lo' wd' := by
  apply Nat.eq_of_testBit_eq
  intro i
  rw [field_testBit, field_testBit, putField_testBit]
  by_cases hi : i < wd'
  · have h1 : ¬ (lo ≤ lo' + i ∧ lo' + i < lo + wd) := by omega
    by_cases ha : lo ≤ lo' + i
    · have hb : ¬ lo' + i < lo + wd := fun hb => h1 ⟨ha, hb⟩
      simp [hi, ha, hb]
    · simp [hi, ha]
  · simp [hi]

@[simp] theorem Act.run_set_mem (f : Fld) (v : Nat) (d : Dev) : ((Act.set f v).run d).mem = d.mem := rfl
@[simp] theorem Act.run_set_eng (f : Fld) (v : Nat) (d : Dev) : ((Act.set f v).run d).eng = d.eng := rfl

/-- A register other than the field's is untouched. -/
theorem Act.run_set_reg_other (f : Fld) (v o : Nat) (d : Dev) (h : f.reg ≠ o) :
    ((Act.set f v).run d).reg o = d.reg o := Act.run_reg_other _ _ _ _ h

/-- A field set reads back, cut to its width. -/
theorem Act.run_set_same (f : Fld) (v : Nat) (d : Dev) (h : f.lo + f.wd ≤ 64) :
    ((Act.set f v).run d).fld f = v % 2 ^ f.wd := by
  simp only [Dev.fld, Act.set, Act.run_dyn, Act.run_reg_same]
  exact field_putField_same _ _ _ _ h

/-- Another field keeps its value: it lies in another register, or apart in the same one. -/
theorem Act.run_set_other (f g : Fld) (v : Nat) (d : Dev)
    (h : f.reg ≠ g.reg ∨ g.lo + g.wd ≤ f.lo ∨ f.lo + f.wd ≤ g.lo) :
    ((Act.set f v).run d).fld g = d.fld g := by
  by_cases hr : f.reg = g.reg
  · have h' := h.resolve_left (fun n => n hr)
    simp only [Dev.fld, Act.set, Act.run_dyn, ← hr, Act.run_reg_same]
    exact field_putField_other _ _ _ _ _ _ h'
  · simp only [Dev.fld]; rw [Act.run_set_reg_other f v g.reg d hr]

@[simp] theorem Dev.fld_eng (d : Dev) (e : Eng) (f : Fld) : ({ d with eng := e } : Dev).fld f = d.fld f := rfl

/-- A field is below two to its width. -/
theorem Dev.fld_lt (d : Dev) (f : Fld) : d.fld f < 2 ^ f.wd := Nat.mod_lt _ (Nat.two_pow_pos _)

/-! ### The canonical form -/

/-- Every change keeps device memory in canonical form. -/
theorem Act.run_memory_wf (a : Act) (d : Dev) (h : Memory.wf d.mem = true) : Memory.wf (a.run d).mem = true := by
  induction a generalizing d with
  | skip => exact h
  | reg => exact h
  | forget => exact h
  | byte k b => exact Store.wf_put _ _ _ _ h
  | zero lo hi => exact Store.wf_drop memDflt (fun k => decide (lo ≤ k) && decide (k < hi)) d.mem h
  | eng => exact h
  | seq a b iha ihb => exact ihb _ (iha _ h)
  | dyn f ih => exact ih d d h

/-- Every change keeps the register store in canonical form. -/
theorem Act.run_regs_wf (a : Act) (d : Dev) (h : Regs.wf d.regs = true) : Regs.wf (a.run d).regs = true := by
  induction a generalizing d with
  | skip => exact h
  | reg o v => exact Store.wf_put _ _ _ _ h
  | forget lo hi => exact Store.wf_drop resetOf (fun k => decide (lo ≤ k) && decide (k < hi)) d.regs h
  | byte => exact h
  | zero => exact h
  | eng => exact h
  | seq a b iha ihb => exact ihb _ (iha _ h)
  | dyn f ih => exact ih d d h

/-! ### How a command runs -/

@[simp] theorem raw_eq (a : Act) (s : State) : raw a s = .next { s with d := a.run s.d } := rfl

/-- A command that needs a working device, on one. -/
theorem cmd_alive (a : Act) (s : State) (h : s.d.alive = true) : cmd a s = .next { s with d := a.run s.d } := by
  simp [cmd, h]

/-- A command that needs a working device, where there is none. -/
theorem cmd_dead (a : Act) (s : State) (h : s.d.alive = false) : cmd a s = .next s := by
  simp [cmd, h]

end Sys2Proof.Machine
end

