-- ==== Sys2Proof/Machine/Cipher.lean ====
section
/-! DEFINITION. The form in which the dune bases store a line (15): XTS with SM4 under the tweaks of R482. State keeps
plaintext, since every agent reads plaintext (R483; log 50), and the stored form is computed from it. -/

namespace Sys2Proof.Machine

/-- The tweak of a line of partition memory, and of every version and frozen copy of it: the partition offset / 64 in [63:0]
(R482). -/
def tweakMem (o : Nat) : BitVec 128 := BitVec.ofNat 128 (o / 64 % 2 ^ 64)

/-- The tweak of a line of a reduction share: the line's index within the channel, the device channel number, and bit 127
(R482). -/
def tweakShare (chan line : Nat) : BitVec 128 :=
  BitVec.ofNat 128 (line % 2 ^ 32 + chan % 512 * 2 ^ 32 + 2 ^ 127)

/-- A tweak times α in the field of IEEE 1619. -/
def timesAlpha (t : BitVec 128) : BitVec 128 := t <<< 1 ^^^ (if t.msb then 0x87#128 else 0#128)

/-- The tweak of block j: the encrypted tweak of the line times α^j. -/
def blockTweak (key : BitVec 256) (t : BitVec 128) : (j : Nat) → BitVec 128
  | 0 => Config.sm4 (key.extractLsb' 128 128) t
  | j + 1 => timesAlpha (blockTweak key t j)

/-- Block j of a line, encrypted (R481). -/
def xtsBlock (key : BitVec 256) (t : BitVec 128) (j : Nat) (b : BitVec 128) : BitVec 128 :=
  let x := blockTweak key t j
  Config.sm4 (key.extractLsb' 0 128) (b ^^^ x) ^^^ x

/-- The four blocks of a 64-byte line, encrypted. -/
def xtsLine (key : BitVec 256) (t : BitVec 128) (bs : List Byte) : List Byte :=
  (List.range 4).flatMap fun j => leBytes 16 (xtsBlock key t j (BitVec.ofNat 128 (leAt bs (16 * j) 16))).toNat

/-- The key pair of a partition now (R483, R625). -/
def Dev.keyPair (d : Dev) (p : Nat) : BitVec 256 := Config.memoryKey p (Store.get zeroNat p d.eng.sec.keys)

/-- A line of a partition as its dune base stores it: plaintext with ENCRYPT 0 (R481). -/
def Dev.stored (d : Dev) (p : Nat) (t : BitVec 128) (bs : List Byte) : List Byte :=
  if d.encrypts p then xtsLine (d.keyPair p) t bs else bs

/-- The stored form of the line at an offset, in committed memory or in an epoch's version. -/
def Dev.storedLine (d : Dev) (p : Nat) (view : Option Nat) (o : Nat) : List Byte :=
  d.stored p (tweakMem o) (d.viewBytes p view (o / 64 * 64) 64)

/-- The stored form of line l of a granule's frozen copy. -/
def Dev.storedFrozen (d : Dev) (p : Nat) (f : FrozenGran) (l : Nat) : List Byte :=
  d.stored p (tweakMem (f.gran * 4096 + l * 64)) ((List.range 64).map fun i => Store.get zeroByte (l * 64 + i) f.data)

/-- The stored form of a line of a reduction share. -/
def Dev.storedShare (d : Dev) (p chan line : Nat) (bs : List Byte) : List Byte := d.stored p (tweakShare chan line) bs

end Sys2Proof.Machine
end

