-- ==== Sys2Proof/WellFormed.lean ====
section
/-! DEFINITION. Well-formed commands: every operand in the range that its field has in the spec. -/

namespace Sys2Proof

/-! ### Checks of an operand -/

def lt (a b : Nat) : Bool := decide (a < b)

/-- A number fits a field of some width. -/
def bits (w v : Nat) : Bool := decide (v < 2 ^ w)

/-- A number that may be absent fits a field. -/
def small (w : Nat) : Option Nat → Bool
  | some v => bits w v
  | none => true

def len (bs : List Byte) (n : Nat) : Bool := bs.length == n

/-- All of some numbers lie below a bound. -/
def all (n : Nat) (l : List Nat) : Bool := l.all fun x => decide (x < n)

/-- A path: the quire, the slot, and a program counter that is a multiple of 8 (R253). -/
def Sel.ok (s : Sel) : Bool := lt s.quire 1536 && lt s.slot 64 && bits 32 s.pc && s.pc % 8 == 0

/-- The widths of R256: the immediate stands where SRC_B and SRC_C would. -/
def baseOk (w : BaseW) : Bool :=
  bits 5 w.guard && bits 9 w.dst && bits 9 w.a && bits 9 w.b && bits 9 w.c && bits 10 w.mod && bits 18 w.imm &&
  (if w.immEn then w.b == 0 && w.c == 0 else w.imm == 0)

/-- The widths of R257. -/
def longOk (w : LongW) : Bool :=
  bits 5 w.guard && bits 9 w.dst && bits 9 w.a && bits 9 w.b && bits 9 w.c && bits 11 w.mod && bits 27 w.ext && bits 5 w.cont

/-- The widths of R535. -/
def pktOk (k : Pkt) : Bool :=
  bits 16 k.dest && bits 16 k.src && bits 8 k.kind && bits 2 k.tc && bits 1 k.vl && bits 4 k.hops && bits 32 k.epoch &&
  bits 32 k.seq && bits 16 k.incarnation && bits 8 k.part && bits 8 k.srcPart && bits 64 k.addr && bits 32 k.arg &&
  bits 16 k.data.length

/-! ### Commands -/

/-- The operands of a command lie in their ranges. -/
def wellFormed : Instr → Bool
  | .registerWrite off width v => lt off 134217728 && (width == 4 || width == 8) && small (8 * width) (some v)
  | .readReg off width => lt off 4294967296 && lt width 256
  | .getRecord => true
  | .ackRecord seq => bits 32 seq
  | .getQuote nonce mask => len nonce 32 && lt mask 256
  | .mctpUnknownCommand code => (lt code 256 && (code == 0 || lt 4 code))
  | .imageLoad => true
  | .imageFetched bs => bits 32 bs.length
  | .imageVerified => true
  | .imageValidated => true
  | .prepareDone => true
  | .applyDone => true
  | .overlayQuiesced => true
  | .overlayTimeout => true
  | .seal => true
  | .revert => true
  | .cancel => true
  | .ucodeLoad => true
  | .ucodeSwitch => true
  | .regulatorStart => true
  | .pwrGood => true
  | .resetRelease _ feed slot => lt feed 8 && lt slot 8
  | .coldReset => true
  | .vinUvWarn => true
  | .thermalTrip sensor tj => lt sensor 40 && bits 16 tj
  | .stopRegulatorsOff => true
  | .vinCollapse => true
  | .vinOvWarn => true
  | .vinOvTrip => true
  | .auxRailFault => true
  | .thermWarn sensor tj => lt sensor 40 && bits 16 tj
  | .pllLossOfLock => true
  | .autoGateArray n a => lt n 1536 && lt a 4
  | .autoGateVector n => lt n 1536
  | .warmReset v => bits 32 v
  | .partitionReset mask => bits 64 mask
  | .partitionResetDone p => lt p 64
  | .portReset mask => bits 32 mask
  | .bist fences narrow ways engines fatal =>
    all 4294967296 fences && (all 6144 (narrow.map Prod.fst) && all 8 (narrow.map Prod.snd)) &&
    all 8 (ways.map Prod.fst) && all 8 engines && lt fatal 7
  | .duneTrain chans bases => all 512 chans && all 32 bases
  | .puf _ => true
  | .axlTrainingDone _ good _ req snp rsp dat regBase memBase =>
    bits 16 good && bits 16 req && bits 16 snp && bits 16 rsp && bits 16 dat &&
    (bits 64 regBase && regBase % 2 ^ 27 == 0) && (bits 64 memBase && memBase % 2 ^ 46 == 0)
  | .axlRetrain => true
  | .defaultPhaseDone => true
  | .fabricPhaseEnd => true
  | .axlFlit body errs seq ack ty req snp rsp dat => len body 248 && lt errs.length 3 && all 545 errs &&
    (bits 12 seq && bits 12 ack && bits 8 ty && bits 8 req && bits 8 snp && bits 8 rsp && bits 8 dat)
  | .axlNak seq => lt seq 4096
  | .axlLinkLoss => true
  | .rdShared tag addr _ => lt tag 16384 && bits 64 addr
  | .rdOwn tag addr _ => lt tag 16384 && bits 64 addr
  | .rdUc tag addr len _ => lt tag 16384 && bits 64 addr && (lt 0 len && lt len 65)
  | .wrLine tag addr data _ => lt tag 16384 && bits 64 addr && len data 64
  | .wrPart tag addr len data _ _ => lt tag 16384 && bits 64 addr && (lt 0 len && lt len 65) && data.length == len
  | .evictDirty tag addr data _ => lt tag 16384 && bits 64 addr && len data 64
  | .evictClean tag addr => lt tag 16384 && bits 64 addr
  | .atomic tag addr arg operand compare _ =>
    lt tag 16384 && bits 64 addr && lt arg 256 && bits 64 operand && bits 64 compare
  | .snpInv tag addr => lt tag 16384 && bits 64 addr
  | .cmp tag status => lt tag 16384 && lt status 256
  | .ackI a => lt a.tag 16384 && bits 64 a.addr
  | .ackS a => lt a.tag 16384 && bits 64 a.addr
  | .data tag data _ => lt tag 16384 && lt data.length 65
  | .dataM a data _ => lt a.tag 16384 && bits 64 a.addr && len data 64
  | .axlReqTimeout tag => lt tag 16384
  | .evtModerationExpiry q => lt q 262144
  | .doorbell q tail => lt q 262144 && bits 16 tail
  | .headWrite q head => lt q 262144 && bits 16 head
  | .ringEnable q => lt q 262144
  | .ringDisable q => lt q 262144
  | .ringAccessFault r => lt r.q 262144
  | .partitionStop p v => lt p 64 && bits 32 v
  | .tallySet t v => lt t 16384 && bits 32 v
  | .tallyAddHost t v => lt t 16384 && bits 32 v
  | .tallyClearFaulted t => lt t 16384
  | .kernel q bs => lt q 262144 && len bs 64
  | .marker q bs => lt q 262144 && len bs 64
  | .copyTask q bs => lt q 262144 && len bs 64
  | .gatheringPlace p role => lt p 64 && lt role 2
  | .taskComplete _ => true
  | .fill q bs => lt q 262144 && len bs 64
  | .copy q bs => lt q 262144 && len bs 64
  | .memtest q bs _ _ => lt q 262144 && len bs 64
  | .matmul q bs => lt q 262144 && len bs 64
  | .allreduce q bs => lt q 262144 && len bs 64
  | .broadcast q bs => lt q 262144 && len bs 64
  | .allgather q bs => lt q 262144 && len bs 64
  | .reduceScatter q bs => lt q 262144 && len bs 64
  | .serviceGroupTimeout _ => true
  | .sendWrite q bs => lt q 262144 && len bs 64
  | .sendRead q bs => lt q 262144 && len bs 64
  | .sendAccumulate q bs => lt q 262144 && len bs 64
  | .sendTallyAdd q bs => lt q 262144 && len bs 64
  | .sendDoorbell q bs => lt q 262144 && len bs 64
  | .mov sel w => Sel.ok sel && baseOk w
  | .movh sel w => Sel.ok sel && baseOk w
  | .iadd sel w => Sel.ok sel && baseOk w
  | .isub sel w => Sel.ok sel && baseOk w
  | .imul sel w => Sel.ok sel && baseOk w
  | .imulh sel w => Sel.ok sel && baseOk w
  | .imad sel w => Sel.ok sel && baseOk w
  | .and sel w => Sel.ok sel && baseOk w
  | .or sel w => Sel.ok sel && baseOk w
  | .xor sel w => Sel.ok sel && baseOk w
  | .shl sel w => Sel.ok sel && baseOk w
  | .shr sel w => Sel.ok sel && baseOk w
  | .min sel w => Sel.ok sel && baseOk w
  | .max sel w => Sel.ok sel && baseOk w
  | .setp sel w => Sel.ok sel && baseOk w
  | .plop sel w => Sel.ok sel && baseOk w
  | .sel sel w => Sel.ok sel && baseOk w
  | .popc sel w => Sel.ok sel && baseOk w
  | .clz sel w => Sel.ok sel && baseOk w
  | .shfl sel w => Sel.ok sel && baseOk w
  | .vote sel w => Sel.ok sel && baseOk w
  | .fadd sel w => Sel.ok sel && baseOk w
  | .fmul sel w => Sel.ok sel && baseOk w
  | .ffma sel w => Sel.ok sel && baseOk w
  | .fmin sel w => Sel.ok sel && baseOk w
  | .fmax sel w => Sel.ok sel && baseOk w
  | .frcp sel w => Sel.ok sel && baseOk w
  | .frsq sel w => Sel.ok sel && baseOk w
  | .fexp2 sel w => Sel.ok sel && baseOk w
  | .flog2 sel w => Sel.ok sel && baseOk w
  | .cvt sel w => Sel.ok sel && baseOk w
  | .bra sel w => Sel.ok sel && baseOk w
  | .braR sel w => Sel.ok sel && baseOk w
  | .exit sel w => Sel.ok sel && baseOk w
  | .nop sel w => Sel.ok sel && baseOk w
  | .ld sel w _ => Sel.ok sel && baseOk w
  | .st sel w _ => Sel.ok sel && baseOk w
  | .atomAdd sel w => Sel.ok sel && baseOk w
  | .atomMin sel w => Sel.ok sel && baseOk w
  | .atomMax sel w => Sel.ok sel && baseOk w
  | .atomAnd sel w => Sel.ok sel && baseOk w
  | .atomOr sel w => Sel.ok sel && baseOk w
  | .atomXor sel w => Sel.ok sel && baseOk w
  | .atomSwap sel w => Sel.ok sel && baseOk w
  | .atomCas sel w => Sel.ok sel && baseOk w
  | .barC sel w => Sel.ok sel && baseOk w
  | .barG sel w => Sel.ok sel && baseOk w
  | .arrive sel w => Sel.ok sel && baseOk w
  | .await sel w => Sel.ok sel && baseOk w
  | .tallyAdd sel w => Sel.ok sel && baseOk w
  | .tallyWait sel w => Sel.ok sel && baseOk w
  | .fence sel w => Sel.ok sel && baseOk w
  | .mtileF sel w => Sel.ok sel && longOk w
  | .mtileB sel w => Sel.ok sel && longOk w
  | .mtileX sel w => Sel.ok sel && longOk w
  | .mload sel w => Sel.ok sel && longOk w
  | .mloadT sel w => Sel.ok sel && longOk w
  | .mstore sel w => Sel.ok sel && longOk w
  | .mtxPassStart n => lt n 1536
  | .mtxPassResult n => lt n 1536
  | .mtxWeightLoadStart n => lt n 1536
  | .mtxWeightSetReady n => lt n 1536
  | .mtxAccReadStart n => lt n 1536
  | .vop sel w => Sel.ok sel && longOk w
  | .vcompress sel w => Sel.ok sel && longOk w
  | .vexpand sel w => Sel.ok sel && longOk w
  | .vred sel w => Sel.ok sel && longOk w
  | .vld sel w => Sel.ok sel && longOk w
  | .vst sel w => Sel.ok sel && longOk w
  | .vecInstructionStart n => lt n 1536
  | .vecInstructionEnd n _ => lt n 1536
  | .acopy sel w => Sel.ok sel && longOk w
  | .acopyDone n _ => lt n 1536
  | .astart sel w => Sel.ok sel && longOk w
  | .astop sel w => Sel.ok sel && longOk w
  | .streamRowFetch n c => lt n 1536 && lt c 16
  | .streamRowLand n c r _ => lt n 1536 && lt c 16 && lt r 65536
  | .prefetchDrop n c r => lt n 1536 && lt c 16 && bits 16 r
  | .streamRowWrite n c => lt n 1536 && lt c 16
  | .streamRowAccepted n c r => lt n 1536 && lt c 16 && bits 16 r
  | .streamDrained n c => lt n 1536 && lt c 16
  | .slotDrained n slot => lt n 1536 && lt slot 64
  | .memDataArrival _ _ => true
  | .barrierWatchdog n _ => lt n 1536
  | .dmask sel w => Sel.ok sel && longOk w
  | .pgather sel g => Sel.ok sel && longOk g.w
  | .pgatherAdmit n _ => lt n 1536
  | .pgatherDone n _ => lt n 1536
  | .gsend sel w => Sel.ok sel && longOk w
  | .proofOpen sel w => Sel.ok sel && longOk w
  | .proofCommit sel w => Sel.ok sel && longOk w
  | .proofDiscard sel w => Sel.ok sel && longOk w
  | .epochInstallDone p e => lt p 64 && bits 32 e
  | .trnStepWrite p v => lt p 64 && bits 32 v
  | .trnLsWrite p v => lt p 64 && bits 64 v
  | .scrubRead c line _ _ => lt c 512 && bits 25 line
  | .refresh c _ => lt c 512
  | .duneHot b tj => lt b 32 && bits 16 tj
  | .duneCool b tj => lt b 32 && bits 16 tj
  | .reduce port k => lt port 33 && pktOk k
  | .reduceAnswer port k => lt port 33 && pktOk k
  | .reduceResend p step attempt _ _ => lt p 64 && bits 32 step && bits 16 attempt
  | .treeEvaluate p _ => lt p 64
  | .rootWrite p _ => lt p 64
  | .rankDone port k => lt port 33 && pktOk k
  | .sendsClosed port k => lt port 33 && pktOk k
  | .ownerDoneSend => true
  | .ownerDone port k => lt port 33 && pktOk k
  | .stepDeadline => true
  | .decision port k => lt port 33 && pktOk k
  | .initBroadcast => true
  | .halt port k => lt port 33 && pktOk k
  | .fabricFlit j _ seq ack ty credits crTc crVl peer =>
    lt j 32 && bits 16 seq && bits 16 ack && lt ty 4 && lt credits 256 && lt crTc 4 && lt crVl 2 && small 64 peer
  | .fabricNak j seq => lt j 32 && bits 16 seq
  | .fabricReplayTimeout j => lt j 32
  | .linkLoss j => lt j 32
  | .portTrained j width slot port _ job rank rtt =>
    lt j 32 && lt width 4 && lt slot 8 && lt port 32 && small 64 job && bits 16 rank && bits 16 rtt
  | .portTrainRetry j => lt j 32
  | .laserLoss m => lt m 4
  | .write port k => lt port 33 && pktOk k
  | .readReq port k _ => lt port 33 && pktOk k
  | .readData port k => lt port 33 && pktOk k
  | .accumulate port k => lt port 33 && pktOk k
  | .remoteIncrement port k => lt port 33 && pktOk k
  | .remoteDoorbell port k => lt port 33 && pktOk k
  | .e2eAck port k => lt port 33 && pktOk k
  | .e2eResend _ _ dest _ => bits 16 dest
  | .gatherReq port k _ => lt port 33 && pktOk k
  | .gatherData port k => lt port 33 && pktOk k
  | .mirror port k => lt port 33 && pktOk k
  | .faultRecord port k => lt port 33 && pktOk k
  | .join port k => lt port 33 && pktOk k
  | .ping port k => lt port 33 && pktOk k
  | .pong port k => lt port 33 && pktOk k
  | .offset port k => lt port 33 && pktOk k
  | .service port k => lt port 33 && pktOk k
  | .alignmentPeriod => true
  | .managerLost => true
  | .sequencerMismatch cls n => lt cls 5 && lt n 6144
  | .unitWatchdog cls n => lt cls 5 && lt n 6144
  | .fillStart => true
  | .fillAbort => true
  | .fillDone => true
  | .fillData port k => lt port 33 && pktOk k
  | .snapshotEnable v => lt v 4
  | .snapshotArm t => bits 32 t
  | .snapshotCancel => true
  | .snapshotRestore => true
  | .snapshotDone => true
  | .snapshotDriveError => true
  | .restoreDone _ _ _ => true
  | .signerLoad => true
  | .signerLoadDone bs => bits 32 bs.length
  | .signerLock => true
  | .measurementExtend v => bits 32 v
  | .logRelease seq => bits 32 seq
  | .quoteRequest v => bits 32 v
  | .quoteDone => true
  | .monClear => true
  | .monLatch p => lt p 64
  | .monPartClear p => lt p 64
  | .pcSample p picks => lt p 64 && all 1536 (picks.map Prod.fst)
  | .hangSnapshot => true
  | .partitionHangSnapshot p => lt p 64
  | .hangCaptureDone => true
  | .ringMark v => bits 64 v
  | .afterFaultExpiry => true
  | .laserLightRestored m => lt m 4
  | .ucodeFetched bs => bits 32 bs.length
  | .snapshotPortTrained drives => lt drives 16
  | .tc0LoadWindow j _ _ => lt j 32
  | .pwrVinUpdate mv amp watt => bits 16 mv && bits 16 amp && bits 16 watt

end Sys2Proof
end

