-- ==== Sys2Proof/Tests/Slice0.lean ====
section
/-! SUPPORT. Tests. For every statement of Obligations.lean that has hypotheses, states and operands that meet them all
(wit_ theorems, one or more for each clause, at values where ranges end); that the checks of WellFormed refuse what they
are for; and single steps whose results are worked out from the spec's rules (test_ theorems). -/

open Sys2Proof Sys2Proof.Machine

namespace Sys2Proof.Tests

set_option Elab.async false

/-! ### One decision for the whole of a premise -/

/-- What Starts asks, as one conjunction. -/
abbrev StartsAll (d : Dev) (p q : Nat) (fromHost b : List Byte) : Prop :=
  (d.alive = true ∧ (0 < d.eng.nextTask ∧ (∀ t ∈ d.eng.tasks, t.id < d.eng.nextTask) ∧
    (∀ x ∈ d.eng.svcs, x.task < d.eng.nextTask) ∧ ∀ kv ∈ d.eng.owners, kv.1 < d.eng.nextTask) ∧
    d.queuePart q = some p ∧ d.dispatching p = true ∧ d.ringEnabled q = true) ∧
  (d.ringPending q ≠ 0 ∧ (∀ r ∈ d.headRange p q, d.hostBusy r.1 r.2.1 r.2.2 = []) ∧
    d.descriptor p q fromHost = some b ∧ (d.ring q).desc = none ∧ d.badDescriptor p q b = false) ∧
  (d.cqOf p b).isSome = true ∧ d.tallyGate p b = 1 ∧ d.epochGate p b = 0 ∧ d.orderedOk q b = true ∧
  (∀ kv ∈ d.eng.rings, kv.1 = q ∨ d.queuePart kv.1 ≠ some p ∨ d.queueKind kv.1 ≠ d.queueKind q ∨
    d.startable kv.1 = false) ∧
  groupKey p (d.queueKind q) ∉ d.eng.tcyc.started

theorem starts_of {d : Dev} {p q : Nat} {fromHost b : List Byte} (h : StartsAll d p q fromHost b) : Starts d p q fromHost b :=
  ⟨h.1.1, h.1.2.1, h.1.2.2.1, h.1.2.2.2.1, h.1.2.2.2.2, h.2.1.1, h.2.1.2.1, h.2.1.2.2.1, h.2.1.2.2.2.1, h.2.1.2.2.2.2,
    h.2.2.1, h.2.2.2.1, h.2.2.2.2.1, h.2.2.2.2.2.1, h.2.2.2.2.2.2.1, h.2.2.2.2.2.2.2⟩

/-! ### States -/

/-- Reset with RESET_N high, some register fields set and the engines changed. -/
def setup (l : List (Fld × Nat)) (f : Eng → Eng) : State :=
  ⟨[], (Act.all (.eng (fun e => f { e with pwr := { e.pwr with resetN := true } }) :: l.map fun x => Act.set x.1 x.2)).run
    State.reset.d⟩

/-- READY in DEFAULT. -/
def live : State := setup [(PWR_BOOT_STATUS_PHASE, 7)] id

/-- READY with the Axoft Link ACTIVE, AXL_REG_BAR at 2^40 and AXL_MEM_BAR at 2^46. -/
def linked : State := setup [(PWR_BOOT_STATUS_PHASE, 7), (AXL_STATUS_STATE, 2), (AXL_REG_BAR_BASE, 2 ^ 40),
  (AXL_MEM_BAR_BASE, 2 ^ 46)] fun e => { e with axl := { e.axl with crReq := 64, crSnp := 64, crRsp := 64, crDat := 64 } }

/-- The same with the engines changed once more. -/
def linkedWith (f : Eng → Eng) : State := ⟨[], (Act.eng f).run linked.d⟩

/-! ### Lines that nothing stands in the way of -/

/-- No line is recalled, nothing waits at a home, no demand access waits, and lines that no host cache holds, of channels that
are not fenced. -/
abbrev FreeAll (d : Dev) (p o n : Nat) : Prop :=
  d.eng.axl.recalls = [] ∧ d.eng.axl.home = [] ∧ d.eng.memWaits = [] ∧
  ∀ l ∈ linesOf o n, d.hostHolds (lineKey p l) = none ∧ d.chanFenced (d.chanOf p l) = false

theorem free_of {d : Dev} {p o n : Nat} (h : FreeAll d p o n) : FreeLines d p o n := by
  intro l hl
  refine ⟨(h.2.2.2 l hl).1, fun after => ?_, (h.2.2.2 l hl).2⟩
  simp [Dev.lineBusyBefore, Dev.recalling, h.1, h.2.1, h.2.2.1]

/-! ### The machine and its registers -/

theorem wit_idle : live.pending = [] := by decide

theorem wit_failed : (setup [(PWR_BOOT_STATUS_PHASE, 15)] id).d.alive = false := by decide +kernel

theorem wit_canonical : State.reset.wf = true ∧ NumbersFresh State.reset.d := by
  refine ⟨by decide +kernel, ?_⟩
  unfold NumbersFresh
  decide +kernel

theorem wit_badAccess : live.d.alive = true ∧ accessOk 3 4 = false ∧ accessOk 0 2 = false := by decide +kernel

theorem gap_of {o : Nat} (h : regAt o = none) (h' : (regAt (o - 4)).all (fun r => !r.wide) = true) : Gap o := by
  refine ⟨h, fun r hr => ?_⟩
  rw [hr] at h'
  simpa using h'

theorem wit_gap : linked.d.alive = true ∧ linked.d.hostTurn = true ∧ accessOk (2 ^ 27 - 8) 8 = true ∧
    Gap (2 ^ 27 - 8) ∧ Gap (2 ^ 27 - 8 + 4) ∧ accessOk 0x30 4 = true ∧ Gap 0x30 ∧
    linked.d.fld AXL_REG_BAR_BASE + (2 ^ 27 - 8) < 2 ^ 64 :=
  ⟨by decide +kernel, by decide +kernel, by decide, gap_of (by decide +kernel) (by decide +kernel),
    gap_of (by decide +kernel) (by decide +kernel), by decide, gap_of (by decide +kernel) (by decide +kernel),
    by decide +kernel⟩

theorem wit_noRegister : regAt 0x7FFFFFC = none ∧ regAt (0x7FFFFFC - 4) = none ∧ 0x7FFFFFC % 4 = 0 := by decide +kernel

/-- The row of MON_HANG_ADDR, a register that only stores. -/
def hangAddr : RegDef := (regAt MON_HANG_ADDR).get (by decide +kernel)

theorem wit_registerWrite : Reaches MON_HANG_ADDR 8 hangAddr MON_HANG_ADDR (lowMask 64) ∧
    Reaches (MON_HANG_ADDR + 4) 4 hangAddr MON_HANG_ADDR (lowMask 32 * 2 ^ 32) ∧
    hangAddr.rw ||| hangAddr.rwl ||| hangAddr.w1c ≠ 0 ∧ live.d.takesWrite hangAddr.base MON_HANG_ADDR 0 = true ∧
    (∀ x ∈ fieldRules live.d, x.1 ≠ hangAddr.base) ∧ MON_HANG_ADDR ≠ CFG_SEAL_STATUS := by
  unfold Reaches
  decide +kernel

theorem wit_registerWrite_plain (lanes stored : Nat) :
    writeAction hangAddr.base (indices hangAddr.dims (MON_HANG_ADDR - hangAddr.base)) lanes stored = none := by rfl

/-- The row of CFG_OVERLAY_TIMEOUT, an RWL register. -/
def overlayTimeout : RegDef := (regAt CFG_OVERLAY_TIMEOUT).get (by decide +kernel)

def sealed : State := ⟨[], (Act.set CFG_SEAL_STATUS_SEALED 1).run linked.d⟩

theorem wit_sealedWrite : sealed.d.alive = true ∧ sealed.d.hostTurn = true ∧
    Reaches CFG_OVERLAY_TIMEOUT 4 overlayTimeout CFG_OVERLAY_TIMEOUT (lowMask 32) ∧
    overlayTimeout.rwl &&& lowMask 32 ≠ 0 ∧ sealed.d.takesWrite overlayTimeout.base CFG_OVERLAY_TIMEOUT 0 = true ∧
    sealed.d.flag CFG_SEAL_STATUS_SEALED = true ∧ 2 ^ 40 + CFG_OVERLAY_TIMEOUT < 2 ^ 64 ∧
    2 ^ 40 = sealed.d.fld AXL_REG_BAR_BASE := by
  unfold Reaches
  decide +kernel

theorem wit_readReg : linked.d.eng.pwr.good = true ∧ linked.d.eng.pwr.resetN = true ∧ linked.d.alive = true ∧
    linked.d.hostTurn = true ∧ linked.d.fld AXL_REG_BAR_BASE + (2 ^ 27 - 8) < 2 ^ 64 := by decide +kernel

/-- A device with an identity, and one whose quote an MCTP request waits for. -/
def known (q : Option (Nat × List Byte × Nat)) : State :=
  setup [(PWR_BOOT_STATUS_PHASE, 7), (SEC_STATUS_IDENTITY, 1)] fun e => { e with sec := { e.sec with quote := q } }

theorem wit_sideband : (live.d.flag SEC_STATUS_IDENTITY = false ∧ live.d.eng.pwr.good = true ∧ live.d.eng.pwr.resetN = true) ∧
    ((known none).d.flag SEC_STATUS_IDENTITY = true ∧ (known none).d.alive = true ∧ (known none).d.eng.sec.quote = none ∧
      (known none).d.eng.sec.quoteNext = none) ∧
    ((known (some (0, [], 0))).d.eng.sec.quote = some (0, [], 0) ∧ (known (some (0, [], 0))).d.eng.sec.quoteNext = none) ∧
    (known (some (1, [], 0))).d.eng.sec.quote = some (1, [], 0) := by decide +kernel

/-! ### Images and microcode -/

/-- READY with an image operation in a state. -/
def loading (state : Nat) (f : Img → Img) (more : List (Fld × Nat)) : State :=
  setup ([(PWR_BOOT_STATUS_PHASE, 7), (CFG_IMAGE_STATUS_STATE, state)] ++ more) fun e => { e with img := f e.img }

theorem wit_imageControl : Idle linked.d ∧ linked.d.axlUp = true ∧ Idle live.d ∧ live.d.axlUp = false ∧ live.d.eng.pwr.heldResets = [] ∧ live.d.fld CFG_IMAGE_STATUS_STATE ≠ 4 ∧
    ((loading 4 id []).d.alive = true ∧ (loading 4 id []).d.fld CFG_IMAGE_STATUS_STATE = 4 ∧
      (loading 4 id []).d.fld PWR_BOOT_STATUS_PHASE = 7 ∧ (loading 4 id []).d.eng.pwr.heldResets = []) ∧
    (loading 4 id [(CFG_OVERLAY_TIMEOUT_TCYCLES, 1)]).d.fld CFG_OVERLAY_TIMEOUT_TCYCLES ≠ 0 := by
  unfold Idle
  decide +kernel

theorem wit_imageChecked : ((loading 1 id []).d.alive = true ∧ (loading 1 id []).d.fld CFG_IMAGE_STATUS_STATE = 1 ∧
      (loading 1 id []).d.eng.img.op = 0) ∧
    ((loading 2 id []).d.fld CFG_IMAGE_STATUS_STATE = 2 ∧ (loading 2 id []).d.eng.pwr.heldResets = []) ∧
    (loading 3 id []).d.fld CFG_IMAGE_STATUS_STATE = 3 ∧
    (loading 5 id []).d.fld CFG_IMAGE_STATUS_STATE = 5 ∧ (loading 5 id []).d.eng.axl.recalls = [] := by decide +kernel

/-- A waiting switch of partition 0's overlay. -/
def reverting (stop : Nat) : State := loading 4 (fun i => { i with op := 2, scope := 1 }) [(PART_CTRL_STOP 0, stop)]

theorem wit_takesEffect : ((reverting 1).d.alive = true ∧ (reverting 1).d.eng.img.op = 2 ∧
      ∀ p, p < 1 → (reverting 1).d.formed p = true → bit (reverting 1).d.eng.img.scope p = true →
        (reverting 1).d.quiesced p = true) ∧
    ((reverting 0).d.formed 0 = true ∧ bit (reverting 0).d.eng.img.scope 0 = true ∧ (reverting 0).d.quiesced 0 = false ∧
      0 ∉ (reverting 0).d.eng.img.resetParts) ∧
    ((loading 6 id []).d.fld CFG_IMAGE_STATUS_STATE = 6 ∧ (loading 6 id []).d.eng.img.op ≠ 3 ∧
      (loading 6 id []).d.eng.pwr.heldResets = []) := by decide +kernel

theorem wit_takesEffect_scope (p : Nat) (h : bit (reverting 1).d.eng.img.scope p = true) : p = 0 := by
  have e : (reverting 1).d.eng.img.scope = 1 := by rfl
  rw [e] at h
  exact Nat.testBit_one_eq_true_iff_self_eq_zero.mp h

theorem wit_microcode : Idle live.d ∧ live.d.eng.pwr.heldResets = [] ∧ ((loading 1 (fun i => { i with op := 3 }) []).d.fld CFG_IMAGE_STATUS_STATE = 1 ∧
      (loading 1 (fun i => { i with op := 3 }) []).d.eng.img.op = 3) ∧
    ((loading 2 (fun i => { i with op := 3 }) []).d.fld CFG_IMAGE_STATUS_STATE = 2 ∧
      (loading 2 (fun i => { i with op := 3 }) []).d.eng.pwr.heldResets = []) := by
  unfold Idle
  decide +kernel

/-! ### Power, reset and boot -/

/-- The supply as it is before power-up, during it, and during a power-fail stop. -/
def powered (regulators good resetN stopping : Bool) : State :=
  ⟨[], (Act.eng fun e => { e with pwr := { e.pwr with
    regulators := regulators, good := good, resetN := resetN, stopping := stopping } }).run live.d⟩

theorem wit_supply : (powered false false false false).d.eng.pwr.regulators = false ∧
    (powered true false false false).d.eng.pwr.good = false ∧ State.reset.d.eng.pwr.resetN = false ∧
    State.reset.d.eng.pwr.good = true ∧ State.reset.d.eng.pwr.stopping = false ∧
    (powered true true true true).d.eng.pwr.stopping = true := by decide +kernel

theorem wit_warnings : live.d.eng.pwr.regulators = true ∧ live.d.eng.pwr.stopping = false ∧ 110 * 16 ≤ signed 16 0x7FFF ∧
    (live.d.fld PWR_THERM_WARN_DEG_C * 16 : Int) < signed 16 1601 := by decide +kernel

theorem wit_gating : (setup [(PWR_BOOT_STATUS_PHASE, 7), (PWR_GATE_CTRL_AUTO_GATE, 1)] id).d.flag PWR_GATE_CTRL_AUTO_GATE =
    true ∧ live.d.quireActive 1535 = true ∧ (live.d.quire 1535).mtx.queue = [] ∧ (live.d.quire 1535).mtx.loading = [] ∧
    (live.d.quire 1535).mtx.passes = [] ∧ (live.d.quire 1535).vec.queue = [] ∧ (live.d.quire 1535).vec.run = [] ∧
    1535 * 4 + 3 ∉ live.d.eng.pwr.gatedArrays ∧ 1535 ∉ live.d.eng.pwr.gatedVecs := by decide +kernel

theorem wit_resets : live.d.eng.pwr.regulators = true ∧ live.d.eng.pwr.good = true ∧ live.d.eng.pwr.resetN = true ∧
    live.d.eng.pwr.stopping = false ∧ field 0x57410001 16 16 = 0x5741 ∧ bit 0x57410001 0 = true ∧
    (powered true true true true).d.eng.pwr.resetN = true := by decide +kernel

theorem wit_partitionReset : live.d.formed 0 = true ∧
    bit ((setup [(PWR_BOOT_STATUS_PHASE, 7), (PWR_RESET_BUSY_PARTS, 1)] id).d.fld PWR_RESET_BUSY_PARTS) 0 = true := by
  decide +kernel

theorem wit_boot (n : Nat) (h : n ∈ [1, 2, 3, 5, 6]) : (setup [(PWR_BOOT_STATUS_PHASE, n)] id).d.alive = true ∧
    (setup [(PWR_BOOT_STATUS_PHASE, n)] id).d.fld PWR_BOOT_STATUS_PHASE = n ∧
    (setup [(PWR_BOOT_STATUS_PHASE, n)] id).d.eng.pwr.fabricEnded = false := by
  revert n
  decide +kernel

/-! ### The Axoft Link -/

theorem wit_training : (setup [(PWR_BOOT_STATUS_PHASE, 4), (AXL_STATUS_STATE, 1)] id).d.alive = true ∧
    (setup [(PWR_BOOT_STATUS_PHASE, 4), (AXL_STATUS_STATE, 1)] id).d.fld AXL_STATUS_STATE = 1 ∧
    (laneGroup 0xF).1 ≠ 0 ∧ live.d.axlUp = false ∧ 4 ≤ live.d.fld PWR_BOOT_STATUS_PHASE := by decide +kernel

theorem wit_linkLoss : linked.d.alive = true ∧ linked.d.axlUp = true ∧ linked.d.eng.axl.reqs = [] ∧
    linked.d.eng.axl.reqWait = [] ∧ linked.d.eng.axl.home = [] := by decide +kernel

/-- The link with one outstanding request, one busy EVT and a flit held. -/
def asked (why : ReqFor) (due : List Nat) : State := linkedWith fun e => { e with
  memWaits := [{ id := 9, quire := 0, slot := 0, lanes := [], host := true, dst := 0, width := 4, sext := false, ret := true,
                 atom := none, vals := [], old := [], want := [⟨true, 1⟩], got := [], poison := false }]
  axl := { e.axl with evtBusy := [5], evtDue := due, reqs := [{ tag := 16383, addr := 64, why := why, task := 0 }] } }

theorem wit_timers : (asked (.write 0) []).d.request 16383 = some { tag := 16383, addr := 64, why := .write 0, task := 0 } ∧
    5 ∈ (asked (.write 0) [5]).d.eng.axl.evtBusy ∧ 5 ∈ (asked (.write 0) [5]).d.eng.axl.evtDue ∧
    5 ∉ (asked (.write 0) []).d.eng.axl.evtDue ∧ (asked (.write 0) []).d.eng.axl.reqWait = [] ∧
    linked.d.eng.pwr.stopping = false := by decide +kernel

/-- A record awaits its CMP, and events are not moderated. -/
def posted : State := ⟨[], (Act.set AXL_EVT_MOD_TCYCLES 0).run (asked (.record 5) []).d⟩

theorem wit_answers : (posted.d.request 16383).map OutReq.why = some (.record 5) ∧
    posted.d.fld AXL_EVT_MOD_TCYCLES = 0 ∧ ((asked (.line 9) []).d.request 16383).map OutReq.why = some (.line 9) ∧
    ((asked (.line 9) []).d.eng.memWaits.find? fun w => w.id == 9).isSome = true ∧ linked.d.request 0 = none := by
  decide +kernel

/-- A flit with an ACK_I of the host in its slots, with credits for what it has taken. -/
def flitFrom (seq ty : Nat) : List Byte :=
  flitBytes { seq := seq, ack := 4095, ty := ty, cr := ⟨64, 0, 0, 255⟩ } (Msg.mk0 opAckI).slots

/-- Its header fields and the bytes behind them spell it. -/
theorem wit_flit_spelt (seq ty : Nat) (h : ty < 16) :
    flitOf seq 4095 ty 64 0 0 255 ((flitFrom seq ty).drop 8) = flitFrom seq ty := by
  have : ty % 256 = ty % 16 := by omega
  simp [flitOf, flitFrom, flitBytes, FlitHead.word, this, List.append_assoc]

/-- A flit in sequence, one ahead of its turn, a duplicate, one without a number, and a damaged one. -/
theorem wit_flit : linked.d.eng.axl.wait = [] ∧ fecDecodes [15, 0] = true ∧ fecDecodes [16] = false ∧
    (∀ x ∈ [(0, 1), (1, 3), (4095, 1), (5, 2)],
      flitHead (flitFrom x.1 x.2) = { seq := x.1, ack := 4095, ty := x.2, cr := ⟨64, 0, 0, 255⟩ }) ∧
    linked.d.eng.axl.seqRx = 0 ∧ seqLe12 (1 + 1) 0 = false ∧ seqLe12 (4095 + 1) 0 = true := by decide +kernel

theorem wit_flit_good (seq ty : Nat) : flitGood (flitFrom seq ty) = true := flitGood_flitBytes _ _

/-- The CRC of zeros is 0. -/
theorem crc64_zeros (n : Nat) : crc64 (List.replicate n 0) = 0 := by
  have h : ∀ n, (List.replicate n (0 : Byte)).foldl (fun c b => (List.range 8).foldl (fun c _ => crcBit c)
      (c ^^^ BitVec.ofNat 64 (b.toNat * 2 ^ 56))) (0 : BitVec 64) = 0 := by
    intro n
    induction n with
    | zero => rfl
    | succ n ih =>
      rw [List.replicate_succ, List.foldl_cons]
      exact ih
  rw [crc64, h]
  rfl

theorem wit_flit_bad : flitGood (List.replicate 248 0 ++ [1]) = false := by
  have h : fit 248 (List.replicate 248 (0 : Byte) ++ [1]) = List.replicate 248 0 := by
    have := fit_append (List.replicate 248 (0 : Byte)) [1]
    simpa only [List.length_replicate] using this
  simp only [flitGood, h, crc64_zeros]
  decide +kernel

/-- Two flits held, the second sent some times. -/
def unacked (sends : Nat) : State := linkedWith fun e => { e with axl := { e.axl with
  held := [⟨0, 1, 0, ⟨0, 0, 0, 0⟩, Msg.mk0 opCmp⟩, ⟨1, sends, 0, ⟨0, 0, 0, 0⟩, Msg.mk0 opCmp⟩] } }

theorem wit_nak : ((unacked 6).d.eng.axl.held.filter fun h => !seqLe12 h.seq ((1 + 4095) % 4096)).map HeldFlit.sends = [6] ∧
    ((unacked 7).d.eng.axl.held.filter fun h => !seqLe12 h.seq ((1 + 4095) % 4096)).map HeldFlit.sends = [7] := by
  decide +kernel

/-- The last byte of partition 0's first line, and its last line, through AXL_MEM_BAR. -/
theorem wit_hostReaches : HostReaches linked.d (2 ^ 46 + 63) 0 63 ∧ linked.d.lineBusy (lineKey 0 63) = false ∧
    linked.d.victim (lineKey 0 63) = none ∧ linked.d.chanFenced (linked.d.chanOf 0 63) = false ∧
    linked.d.inMemory 0 63 1 = true ∧ linked.d.poisoned 0 none 56 8 = false := by
  unfold HostReaches HostServed
  decide +kernel

theorem wit_hostReaches_end : HostReaches linked.d (2 ^ 46 + 824633720824) 0 824633720824 ∧
    linked.d.inMemory 0 824633720824 8 = true := by
  unfold HostReaches HostServed
  decide +kernel

/-- The host holds the first line of partition 0 in E, and its recall is under way. -/
def lent (due : Bool) : State := linkedWith fun e => { e with axl := { e.axl with
  dir := [(0, .exclusive)], recalls := [⟨0, some 5, false, due, false⟩] } }

theorem wit_givesBack : HostServed (lent false).d (2 ^ 46) 0 0 ∧ (∀ r ∈ (lent false).d.eng.axl.recalls, r.answered = false) ∧
    (lent false).d.hostHolds (lineKey 0 0) = some .exclusive ∧ (lent false).d.chanFenced ((lent false).d.chanOf 0 0) = false ∧
    (∀ due ∈ [false, true], (lent due).d.answered 5 (2 ^ 46) = some (0, 0, ⟨0, some 5, false, due, false⟩)) ∧
    (lent false).d.eng.axl.home = [] ∧ (lent false).d.eng.axl.inq = [] ∧ (lent false).d.eng.dune.mirrors = [] := by
  unfold HostServed
  decide +kernel

/-! ### Rings, tallies and tasks -/

/-- A ring of 16 slots in partition memory at offset 0, with a descriptor in its first slot. -/
def work (q : Nat) (b : List Byte) : State :=
  ⟨[], (Act.all [Act.set (QUE_BASE_LOC q) 1, Act.set (QUE_CFG_LOG2_SIZE q) 4, Act.set (QUE_CFG_ENABLE q) 1,
    Act.set (QUE_TAIL_TAIL q) 1, Act.bytes 0 b]).run linked.d⟩

/-- The ring disabled, with one slot taken, of another size. -/
def idleRing (q log2 : Nat) : State :=
  ⟨[], (Act.all [Act.set (QUE_BASE_LOC q) 1, Act.set (QUE_CFG_LOG2_SIZE q) log2]).run linked.d⟩

/-- The 64 bytes of a descriptor whose completion queue is the first of partition 0. -/
def descriptor (kind service tally : Nat) (args : List Nat) : List Byte :=
  leBytes 1 kind ++ [0] ++ leBytes 1 service ++ [0] ++ leBytes 4 1024 ++ leBytes 4 7 ++ leBytes 2 0xFFFF ++
  leBytes 2 tally ++ leBytes 8 0 ++ (args.map fun a => leBytes 8 a).flatten

theorem wit_doorbell : (work 0 []).d.queuePart 0 = some 0 ∧ (work 0 []).d.pageOpen 0 = true ∧
    (work 0 []).d.queueKind 0 ∈ [1, 3, 4] ∧ (work 0 []).d.ringEnabled 0 = true ∧ 15 < (work 0 []).d.ringSize 0 ∧
    (15 + (work 0 []).d.ringSize 0 - (work 0 []).d.fld (QUE_TAIL_TAIL 0)) % (work 0 []).d.ringSize 0 +
      (work 0 []).d.ringPending 0 + 1 ≤ (work 0 []).d.ringSize 0 ∧
    (work 0 []).d.ringSize 0 ≤ 16 ∧ live.d.ringEnabled 0 = false ∧ (work 0 []).d.ringSize 0 <
      (0 + (work 0 []).d.ringSize 0 - (work 0 []).d.fld (QUE_TAIL_TAIL 0)) % (work 0 []).d.ringSize 0 +
        (work 0 []).d.ringPending 0 + 1 := by decide +kernel

theorem wit_headWrite : (work 1024 []).d.queueKind 1024 ∈ [2, 5] ∧ 1 < (work 1024 []).d.ringSize 1024 ∧
    (1 + (work 1024 []).d.ringSize 1024 - (work 1024 []).d.fld (QUE_HEAD_HEAD 1024)) % (work 1024 []).d.ringSize 1024 ≤
      (work 1024 []).d.ringPending 1024 ∧ (work 1024 []).d.ringPending 1024 <
    (2 + (work 1024 []).d.ringSize 1024 - (work 1024 []).d.fld (QUE_HEAD_HEAD 1024)) % (work 1024 []).d.ringSize 1024 :=
  by decide +kernel

theorem wit_ringEnable : (idleRing 0 16).d.ringEnabled 0 = false ∧ (idleRing 0 16).d.fld (QUE_CFG_LOG2_SIZE 0) = 16 ∧
    (idleRing 0 16).d.flag (QUE_BASE_LOC 0) = true ∧
    (idleRing 0 16).d.inMemory 0 ((idleRing 0 16).d.fld (QUE_BASE_BASE 0) * 4096) (64 * 2 ^ 16) = true ∧
    0 ≠ (idleRing 0 16).d.hostRing ∧ (idleRing 0 3).d.fld (QUE_CFG_LOG2_SIZE 0) < 4 := by decide +kernel

theorem wit_ringFault : (⟨[], (Act.set (QUE_BASE_LOC 0) 0).run (work 0 []).d⟩ : State).d.flag (QUE_BASE_LOC 0) = false ∧
    (work 0 []).d.ringPending 0 ≠ 0 ∧ ((work 0 []).d.ring 0).desc = none := by decide +kernel

theorem wit_tally : live.d.tallyPart 255 = some 0 ∧ live.d.pageOpen 0 = true := by decide +kernel

/-- A descriptor that starts at once. -/
theorem wit_starts_marker : Starts (work 0 (descriptor 5 0 0xFFFF [0, 0, 0, 0, 0])).d 0 0 []
    (descriptor 5 0 0xFFFF [0, 0, 0, 0, 0]) := starts_of (by decide +kernel)

/-- A kernel of one gathering of one caravan whose header lies at 4096. -/
def kernel : List Byte := descriptor 1 0 0xFFFF [4096, 2 ^ 32 + 1, 0, 0, 0]

theorem wit_starts_kernel : Starts (work 0 kernel).d 0 0 [] kernel ∧ (work 0 kernel).d.hostBusy 0 4096 64 = [] := by
  refine ⟨starts_of (by decide +kernel), by decide +kernel⟩

/-- A copy of 100 bytes from offset 1000 to offset 5000. -/
def copying : List Byte := descriptor 3 0 0xFFFF [2 ^ 46 + 1000, 2 ^ 46 + 5000, 100, 0, 0]

theorem wit_starts_copy : Starts (work 2048 copying).d 0 2048 [] copying ∧
    (work 2048 copying).d.place 0 (2 ^ 46 + 1000) 100 false = .mem 1000 ∧
    (work 2048 copying).d.place 0 (2 ^ 46 + 5000) 100 true = .mem 5000 ∧ overlaps 1000 5000 100 = false ∧
    (work 2048 copying).d.hostBusy 0 1000 100 = [] ∧ FreeLines (work 2048 copying).d 0 5000 100 := by
  refine ⟨starts_of (by decide +kernel), by decide +kernel, by decide +kernel, by decide +kernel, by decide +kernel,
    free_of (by decide +kernel)⟩

/-! ### Services and sends -/

/-- A service of each kind on bytes 1000 to 1099, its range or destination at 5000. -/
def filling : List Byte := descriptor 2 1 0xFFFF [2 ^ 46 + 5000, 100, 0x0807060504030201, 0, 0]
def serviceCopy : List Byte := descriptor 2 2 0xFFFF [2 ^ 46 + 1000, 2 ^ 46 + 5000, 100, 0, 0]
def memtest : List Byte := descriptor 2 3 0xFFFF [2 ^ 46 + 5000, 100, 1, 0, 0]

/-- MATMUL of 1 by 1 matrices of FP32. -/
def matmul : List Byte := descriptor 2 4 0xFFFF [2 ^ 46 + 1000, 2 ^ 46 + 2000, 2 ^ 46 + 5000, 1 + 2 ^ 17 + 2 ^ 34, 0x101]

/-- BROADCAST of 64 bytes from board slot 0 to slots 0 and 1, or to slot 1 only. -/
def broadcasting (group : Nat) : List Byte := descriptor 2 6 0xFFFF [2 ^ 46 + 1000, 64, group * 256, 0, 0]

theorem wit_starts_fill : Starts (work 0 filling).d 0 0 [] filling ∧
    (work 0 filling).d.place 0 (2 ^ 46 + 5000) 100 true = .mem 5000 ∧ FreeLines (work 0 filling).d 0 5000 100 := by
  refine ⟨starts_of (by decide +kernel), by decide +kernel, free_of (by decide +kernel)⟩

theorem wit_starts_serviceCopy : Starts (work 0 serviceCopy).d 0 0 [] serviceCopy ∧
    (work 0 serviceCopy).d.place 0 (2 ^ 46 + 1000) 100 false = .mem 1000 ∧
    (work 0 serviceCopy).d.place 0 (2 ^ 46 + 5000) 100 true = .mem 5000 ∧
    (work 0 serviceCopy).d.hostBusy 0 1000 100 = [] ∧ dKind serviceCopy = kdService ∧ dService serviceCopy = 2 ∧
    overlaps 1000 5000 100 = false ∧ FreeLines (work 0 serviceCopy).d 0 5000 100 := by
  refine ⟨starts_of (by decide +kernel), by decide +kernel, by decide +kernel, by decide +kernel, by decide +kernel,
    by decide +kernel, by decide +kernel, free_of (by decide +kernel)⟩

theorem wit_starts_memtest : Starts (work 0 memtest).d 0 0 [] memtest ∧ dService memtest = 3 ∧
    (work 0 memtest).d.place 0 (2 ^ 46 + 5000) 100 true = .mem 5000 ∧
    (work 0 memtest).d.poisoned 0 none 5000 100 = false ∧ FreeLines (work 0 memtest).d 0 5000 100 := by
  refine ⟨starts_of (by decide +kernel), by decide +kernel, by decide +kernel, by decide +kernel, free_of (by decide +kernel)⟩

theorem wit_starts_matmul : Starts (work 0 matmul).d 0 0 [] matmul ∧
    (work 0 matmul).d.place 0 (2 ^ 46 + 1000) (mmBytesA matmul) false = .mem 1000 ∧
    (work 0 matmul).d.place 0 (2 ^ 46 + 2000) (mmBytesB matmul) false = .mem 2000 ∧
    (work 0 matmul).d.place 0 (2 ^ 46 + 5000) (mmBytesC matmul) true = .mem 5000 ∧
    (work 0 matmul).d.hostBusy 0 1000 (mmBytesA matmul) = [] ∧
    (work 0 matmul).d.place 0 (2 ^ 46 + 5000) (mmBytesC matmul) false = .mem 5000 ∧
    (work 0 matmul).d.hostBusy 0 2000 (mmBytesB matmul) = [] ∧
    (work 0 matmul).d.poisoned 0 none 1000 (mmBytesA matmul) = false ∧
    (work 0 matmul).d.poisoned 0 none 2000 (mmBytesB matmul) = false ∧
    (work 0 matmul).d.poisoned 0 none 5000 (mmBytesC matmul) = false ∧ FreeLines (work 0 matmul).d 0 5000 (mmBytesC matmul) := by
  refine ⟨starts_of (by decide +kernel), by decide +kernel, by decide +kernel, by decide +kernel, by decide +kernel,
    by decide +kernel, by decide +kernel, by decide +kernel, by decide +kernel, by decide +kernel, free_of (by decide +kernel)⟩

theorem wit_starts_collective : Starts (work 0 (broadcasting 3)).d 0 0 [] (broadcasting 3) ∧
    bit (cGroup (broadcasting 3)) (work 0 (broadcasting 3)).d.eng.pwr.straps.slot = true ∧
    bit (cGroup (broadcasting 3)) (cRoot (broadcasting 3)) = true ∧ bit (cGroup (broadcasting 3)) 1 = true ∧
    (work 0 (broadcasting 3)).d.place 0 (dArg (broadcasting 3) 0) (cBytes (broadcasting 3) 0) false = .mem 1000 ∧
    (work 0 (broadcasting 3)).d.place 0 (cDst (broadcasting 3)) (cDstBytes (broadcasting 3)) true = .mem 1000 ∧
    cBytes (broadcasting 3) 0 ≤ 4096 ∧ (work 0 (broadcasting 3)).d.eng.inbox = [] := by
  refine ⟨starts_of (by decide +kernel), by decide +kernel⟩

theorem wit_starts_outside : Starts (work 0 (broadcasting 2)).d 0 0 [] (broadcasting 2) ∧
    bit (cGroup (broadcasting 2)) (work 0 (broadcasting 2)).d.eng.pwr.straps.slot = false ∧
    (work 0 (broadcasting 2)).d.hostBusy 0 1000 (cBytes (broadcasting 2) 0) = [] := by
  refine ⟨starts_of (by decide +kernel), by decide +kernel⟩

/-- A task of a descriptor, its service waiting for the others. -/
def serving (b : List Byte) : State := linkedWith fun e => { e with
  nextTask := 8, tasks := [{ linked.d.newTask 0 0 b with id := 7 }]
  svcs := [{ task := 7, sent := true, buf := [], got := [], bad := [] }] }

theorem wit_groupTimeout : ((serving (broadcasting 3)).d.task 7).isSome = true ∧
    ((serving (broadcasting 3)).d.svc 7).isSome = true ∧ dService (broadcasting 3) ≠ 4 := by decide +kernel

/-- A SEND of 100 bytes at 1000 to address 2000 of rank 3; op 1 WRITE, 2 READ, 3 ACCUMULATE, 4 TALLY_ADD, 5 DOORBELL. -/
def sending (op : Nat) : List Byte :=
  if op ≤ 3 then descriptor 4 0 0xFFFF [op + 3 * 2 ^ 16, 1000, 2000, 100, 0]
  else descriptor 4 0 0xFFFF [op + 3 * 2 ^ 16, 0, 5, 9, 0]

theorem wit_starts_send (op : Nat) (h : op ∈ [1, 2, 3, 4, 5]) :
    Starts (work 3072 (sending op)).d 0 3072 [] (sending op) ∧ sOp (sending op) = op ∧
    (work 3072 (sending op)).d.peerDropped (sending op) = false ∧
    (op ≤ 3 → (work 3072 (sending op)).d.inMemory 0 1000 100 = true ∧
      (work 3072 (sending op)).d.hostBusy 0 1000 100 = []) := by
  revert op
  simp only [List.forall_mem_cons, List.not_mem_nil, false_implies, implies_true, and_true]
  refine ⟨⟨?_, by decide +kernel⟩, ⟨?_, by decide +kernel⟩, ⟨?_, by decide +kernel⟩, ⟨?_, by decide +kernel⟩,
    ⟨?_, by decide +kernel⟩⟩ <;> exact starts_of (by decide +kernel)

/-- A task whose work has ended. -/
def ended (status : Nat) : State := linkedWith fun e => { e with
  nextTask := 8, tasks := [{ linked.d.newTask 0 0 (descriptor 5 0 255 [0, 0, 0, 0, 0]) with
                             id := 7, ended := true, status := status }] }

theorem wit_taskCompletes (status : Nat) (h : status ∈ [stOk, stFault]) :
    ((ended status).d.task 7).isSome = true ∧ (ended status).d.taskQuiet 7 = true ∧
    (∀ t, (ended status).d.task 7 = some t → t.status = status ∧ (ended status).d.workEnded t = true) ∧
    (ended status).d.relTally 0 255 = some 255 := by
  revert status
  simp only [List.forall_mem_cons, List.not_mem_nil, false_implies, implies_true, and_true]
  refine ⟨⟨by decide +kernel, by decide +kernel, ?_, by decide +kernel⟩, by decide +kernel, by decide +kernel, ?_,
    by decide +kernel⟩ <;> intro t h <;> cases h <;> decide +kernel

/-! ### Igtik: states and premises -/

/-- What Issues asks of a context, as one conjunction. -/
abbrev IssuesAll (d : Dev) (sel : Sel) (cls op : Nat) (w : BaseW) (x : Ctx) : Prop :=
  (d.alive = true ∧ (sel.quire < 1536 ∧ x.task.part < 64) ∧ d.running sel.quire sel.slot = some (x.c, x.g, x.task) ∧
    x = d.ctx sel x.c x.g x.task w ∧ d.fetch x.task sel.pc = .base cls op w ∧ d.fetchBusy x.task sel.pc = []) ∧
  ((d.nextSlot sel.quire = some sel.slot ∧ d.nextPath sel.quire sel.slot = some sel.pc) ∧ x.path ≠ [] ∧
    baseIllegal cls op w = false ∧ (baseShape cls op w).outOfRange w x.task.regs = false) ∧
  (∀ u ∈ (d.quire x.n).pendingUni x.slot, u ∉ (baseShape cls op w).uniforms w) ∧ d.baseHeld x cls = false

theorem issues_of {d : Dev} {sel : Sel} {cls op : Nat} {w : BaseW} {x : Ctx} (h : IssuesAll d sel cls op w x) :
    Issues d sel cls op w x :=
  ⟨h.1.1, h.1.2.1, h.1.2.2.1, h.1.2.2.2.1, h.1.2.2.2.2.1, h.1.2.2.2.2.2, h.2.1.1, h.2.1.2.1, h.2.1.2.2.1, h.2.1.2.2.2,
    h.2.2.1, h.2.2.2⟩

/-- A KERNEL task of partition 0 with 64 registers, 2 leaf pages and 4 KiB of code. -/
def kernelTask : Task := { live.d.newTask 0 0 kernel with
  id := 1, header := List.replicate 6 0 ++ [64, 2] ++ List.replicate 8 0 ++ leBytes 4 4096 ++ List.replicate 44 0 }

/-- Its caravan in slot 0 of quire 0, all lanes ACTIVE at the first instruction. -/
def caravan0 : Caravan :=
  { slot := 0, task := 1, gath := 0, index := 0, prio := 0, stopping := false, pcs := [], thr := [], passed := [], age := 0,
    waits := [], g := [], u := [], p := [] }

/-- Its gathering, with two leaf pages. -/
def gath0 : Gathering := ⟨1, 0, [0], [0, 1], 64 * 32 * 4⟩

/-- The device with that caravan, changed as a test wants it. -/
def running (c : Caravan → Caravan) (q : Quire → Quire) (f : Eng → Eng) : State :=
  linkedWith fun e => f { e with
    nextTask := 2, tasks := [kernelTask]
    quires := [(0, q { Quire.idle with caravans := [c caravan0], gaths := [gath0] })] }

def plain : State := running id id id

/-- A state with an instruction word at its kernel's first address, and one with a word pair. -/
def coded (cls op : Nat) (w : BaseW) (s : State) : State := ⟨[], (Act.bytes 0 (leBytes 8 (baseWord cls op w))).run s.d⟩
def codedL (cls op : Nat) (w : LongW) (s : State) : State := ⟨[], (Act.bytes 0 (leBytes 16 (longWord cls op w))).run s.d⟩

/-- The context in which an instruction at the first address issues. -/
def ctx (s : State) (w : BaseW) : Ctx :=
  let c := (s.d.caravan 0 0).getD caravan0
  { n := 0, slot := 0, pc := 0, now := s.d.now, task := kernelTask, g := gath0, c := c
    path := c.path 0, exec := c.guarded w.guard (c.path 0), w := w }

/-- A word of general registers, one with an immediate, and one with a uniform address. -/
def regsW (dst a b c mod : Nat) : BaseW :=
  { guard := 0, dst := dst, a := a, b := b, c := c, mod := mod, immEn := false, imm := 0 }
def immW (dst a mod imm : Nat) : BaseW :=
  { guard := 0, dst := dst, a := a, b := 0, c := 0, mod := mod, immEn := true, imm := imm }

/-- An instruction at the first address of its kernel issues. -/
def issuing (cls op : Nat) (w : BaseW) (s : State) : Bool :=
  decide (IssuesAll (coded cls op w s).d ⟨0, 0, 0⟩ cls op w (ctx (coded cls op w s) w))

abbrev At (cls op : Nat) (w : BaseW) (s : State) : Prop := issuing cls op w s = true

theorem issues_at {cls op : Nat} {w : BaseW} {s : State} (h : At cls op w s) :
    Issues (coded cls op w s).d ⟨0, 0, 0⟩ cls op w (ctx (coded cls op w s) w) := issues_of (of_decide_eq_true h)

/-- Every shape of the ALU, FPU, CVT and CTRL classes issues: in general, uniform and predicate registers, in the last general
register, with an immediate, and with gz. -/
theorem wit_issues : ∀ k ∈ [(0, 0, regsW 63 0x100 0 0 0), (0, 0, regsW 0xFF 0xFF 0 0 0), (0, 2, immW 0x13F 0x180 0 0x3FFFF),
      (0, 5, regsW 5 5 0x140 0 1), (0, 6, regsW 1 2 3 4 0), (0, 1, immW 7 0 0 0xFFFF), (0, 0xE, regsW 0x147 1 2 0 0x1B),
      (0, 0xF, regsW 0x140 0x141 0x142 0 8), (0, 0x13, regsW 1 2 3 0 0), (0, 0x14, regsW 1 2 0 0 0),
      (1, 0, regsW 1 2 3 0 1), (1, 1, regsW 1 2 3 4 10), (1, 2, regsW 1 2 3 4 8), (1, 2, regsW 1 2 3 4 2),
      (1, 3, regsW 1 2 3 0 8), (1, 8, regsW 1 2 0 0 0), (2, 0, regsW 1 2 0 0 0x188), (2, 0, regsW 1 2 0 3 0x288),
      (3, 0, immW 0 1 4 0x20000), (3, 1, regsW 0 1 2 0 4), (3, 2, regsW 0 0 0 0 0), (3, 3, regsW 0 0 0 0 0)],
    At k.1 k.2.1 k.2.2 plain := by decide +kernel

theorem wit_issues_add : Issues (coded 0 2 (immW 0x13F 0x180 0 0x3FFFF) plain).d ⟨0, 0, 0⟩ 0 2 (immW 0x13F 0x180 0 0x3FFFF)
    (ctx (coded 0 2 (immW 0x13F 0x180 0 0x3FFFF) plain) (immW 0x13F 0x180 0 0x3FFFF)) := issues_at (by decide +kernel)

/-- A load of 4 bytes from the leaf, and loads of 16 bytes from the last bytes of partition 0, whose line the folio's cache
holds or does not. -/
def leafLd : BaseW := { regsW 4 0xFF 1 0 8 with dst := 4 }
def lastBytes (folios : Nat) : State := running (fun c => { c with u := [(2, BitVec.ofNat 32 (824633720816 % 2 ^ 32)), (3, BitVec.ofNat 32 (824633720816 / 2 ^ 32))] })
  id fun e => { e with dune := { e.dune with folios := [⟨lineKey 0 824633720816, none, folios⟩] } }
def atEnd : State := lastBytes 1
def duneLd : BaseW := immW 4 0x102 0x11 0

theorem wit_ld_leaf : let s := coded 4 0 leafLd plain
    At 4 0 leafLd plain ∧ field leafLd.mod 0 2 = 0 ∧
    (∀ l ∈ (ctx s leafLd).exec, (ctx s leafLd).addr l % memBytes leafLd = 0) ∧
    ∀ l ∈ (ctx s leafLd).exec, (s.d.leafAt 0 (ctx s leafLd).g ((ctx s leafLd).addr l) (memBytes leafLd)
      (s.d.cluster 0)).isSome = true := by decide +kernel

theorem wit_ld_memory : let s := coded 4 0 duneLd atEnd
    At 4 0 duneLd atEnd ∧ field duneLd.mod 0 2 = 1 ∧ field duneLd.mod 2 3 = 4 ∧ (ctx s duneLd).exec ≠ [] ∧
    s.d.taskView 1 = none ∧
    (∀ l ∈ (ctx s duneLd).exec, (ctx s duneLd).addr l % memBytes duneLd = 0 ∧
      s.d.inMemory 0 ((ctx s duneLd).addr l) (memBytes duneLd) = true ∧
      s.d.folioHolds none (folioOf 0) (lineKey 0 ((ctx s duneLd).addr l)) = true ∧
      s.d.poisoned 0 none ((ctx s duneLd).addr l) (memBytes duneLd) = false) := by decide +kernel

theorem wit_ld_memory_waits : let s := coded 4 0 duneLd (lastBytes 2)
    At 4 0 duneLd (lastBytes 2) ∧ (ctx s duneLd).exec ≠ [] ∧
    (∃ l ∈ (ctx s duneLd).exec, s.d.folioHolds (s.d.taskView 1) (folioOf 0) (lineKey 0 ((ctx s duneLd).addr l)) = false) ∧
    ∀ l ∈ (ctx s duneLd).exec, s.d.inMemory 0 ((ctx s duneLd).addr l) (memBytes duneLd) = true := by decide +kernel

/-- A path that waits for a line of device memory: a load, or an atomic add of one lane. -/
def waiting (atom : Option (Nat × Bool)) : State :=
  running (fun c => { c with thr := [(5, .waitMem 1)] }) id fun e => { e with
    memWaits := [{ id := 1, quire := 0, slot := 0, lanes := [(5, 4096)], host := false, dst := 2, width := 8, sext := false,
                   ret := true, atom := atom, vals := [(5, 3, 4)], old := [], got := [], want := [⟨false, lineKey 0 4096⟩],
                   poison := false }] }

theorem wit_arrival (atom : Option (Nat × Bool)) (h : atom ∈ [none, some (0, false), some (7, true)]) :
    (waiting atom).d.alive = true ∧ ((waiting atom).d.eng.memWaits.find? fun y => y.id == 1).isSome = true ∧
    (waiting atom).d.task ((waiting atom).d.ownerOf 1) = some kernelTask ∧ kernelTask.epoch = none ∧
    (waiting atom).d.poisoned 0 none 4096 8 = false ∧ ((waiting atom).d.caravan 0 0).isSome = true ∧
    ∀ y ∈ (waiting atom).d.eng.memWaits, ComesNext (waiting atom).d y 0 := by
  unfold ComesNext
  revert atom
  decide +kernel

/-- Stores and atomics of 8 bytes, to the leaf and to device memory. -/
def leafSt : BaseW := immW 4 0xFF 0xC 0
def duneSt : BaseW := immW 4 0x102 0xD 0
def oneLane (w : BaseW) : BaseW := { w with guard := 0x10 }
def guarded : State := running (fun c => { c with p := [(31, true)] }) id id

theorem wit_st : let s := coded 4 1 leafSt plain
    let t := coded 4 1 duneSt atEnd
    At 4 1 leafSt plain ∧ At 4 1 duneSt atEnd ∧ t.d.taskView 1 = none ∧
    (∀ l ∈ (ctx s leafSt).exec, (ctx s leafSt).addr l % memBytes leafSt = 0 ∧
      (s.d.leafAt 0 (ctx s leafSt).g ((ctx s leafSt).addr l) (memBytes leafSt) (s.d.cluster 0)).isSome = true) ∧
    ∀ l ∈ (ctx t duneSt).exec, (ctx t duneSt).addr l = 824633720816 ∧
      t.d.inMemory 0 824633720816 (memBytes duneSt) = true := by decide +kernel

theorem wit_st_free : FreeLines (coded 4 1 duneSt atEnd).d 0 824633720816 (memBytes duneSt) := free_of (by decide +kernel)

/-- An atomic of 8 bytes on lane 31 that returns the old value. -/
def atomW (space : Nat) : BaseW :=
  { regsW 4 (if space = 0 then 0xFF else 0x102) (if space = 0 then 1 else 0xFF) 8 (space + 12) with guard := 0x10 }
def atEnd31 : State := running (fun c => { c with
  p := [(31, true)], u := [(2, BitVec.ofNat 32 (824633720824 % 2 ^ 32)), (3, BitVec.ofNat 32 (824633720824 / 2 ^ 32))] }) id id

theorem wit_atom (op : Nat) (h : op < 8) : let s := coded 5 op (atomW 0) guarded
    let t := coded 5 op (atomW 1) atEnd31
    At 5 op (atomW 0) guarded ∧ At 5 op (atomW 1) atEnd31 ∧ (ctx s (atomW 0)).exec = [31] ∧ (ctx t (atomW 1)).exec = [31] ∧
    (ctx s (atomW 0)).addr 31 % atomBytes (atomW 0) = 0 ∧ (ctx t (atomW 1)).addr 31 % atomBytes (atomW 1) = 0 ∧
    (s.d.leafAt 0 (ctx s (atomW 0)).g ((ctx s (atomW 0)).addr 31) 8 (s.d.cluster 0)).isSome = true ∧
    t.d.inMemory 0 ((ctx t (atomW 1)).addr 31) 8 = true := by
  revert op
  decide +kernel

/-- A window of the partition on the last page of the host, paths that access its last bytes, and their line in the folio's
cache. -/
def hostW (c : Nat) : BaseW := { regsW 4 0x102 0xFF c 0xE with guard := 0x10 }
def lastLine : HostLine := { line := 2 ^ 58 - 1, part := 0, folios := 1, poison := false, data := List.replicate 64 7 }
def hostWith (filter : List HostLine) : State := ⟨[], (Act.all [Act.set (AXL_HWIN_BASE_EN 0) 1, Act.set (AXL_HWIN_BASE_WRITE 0) 1,
  Act.set (AXL_HWIN_BASE_BASE 0) (2 ^ 52 - 1), Act.set (AXL_HWIN_LIMIT_LIMIT 0) (2 ^ 52 - 1)]).run (running (fun c => { c with
    p := [(31, true)], u := [(2, 0xFFFFFFF8), (3, 0xFFFFFFFF)] }) id fun e => { e with axl := { e.axl with filter := filter } }).d⟩
def atHost : State := hostWith []

theorem wit_host : let s := coded 4 0 (hostW 0) atHost
    At 4 0 (hostW 0) atHost ∧ At 4 1 (hostW 0) atHost ∧ (∀ op ∈ [0, 6, 7], At 5 op (hostW 8) atHost) ∧
    (ctx s (hostW 0)).exec = [31] ∧ (ctx s (hostW 0)).addr 31 = 2 ^ 64 - 8 ∧ s.d.axlUp = true ∧
    s.d.eng.pwr.stopping = false ∧ s.d.hostPermit 0 (2 ^ 64 - 8) 8 true = true ∧
    s.d.hostPermit 0 (2 ^ 64 - 8) 8 false = true ∧ s.d.hostLine 0 (folioOf 0) ((2 ^ 64 - 8) / 64) = none ∧
    s.d.taskView 1 = none := by decide +kernel

theorem wit_host_hit : let s := coded 4 0 (hostW 0) (hostWith [lastLine])
    At 4 0 (hostW 0) (hostWith [lastLine]) ∧ s.d.hostPermit 0 (2 ^ 64 - 8) 8 false = true ∧
    s.d.hostLine 0 (folioOf 0) ((2 ^ 64 - 8) / 64) = some lastLine := by decide +kernel

/-- A path whose host access has been answered. -/
def hostAnswered (atom : Option (Nat × Bool)) : State :=
  running (fun c => { c with thr := [(31, .waitMem 1)] }) id fun e => { e with
    memWaits := [{ id := 1, quire := 0, slot := 0, lanes := [(31, 2 ^ 64 - 4)], host := true, dst := 254, width := 4, sext := false,
                   ret := true, atom := atom, vals := [(31, 3, 4)], old := [(31, 77)], want := [], poison := false,
                   got := [(2 ^ 64 - 4, 1), (2 ^ 64 - 3, 2), (2 ^ 64 - 2, 3), (2 ^ 64 - 1, 4)] }] }

theorem wit_host_arrival (atom : Option (Nat × Bool)) (h : atom ∈ [none, some (7, false)]) :
    ((hostAnswered atom).d.eng.memWaits.find? fun y => y.id == 1).isSome = true ∧
    (hostAnswered atom).d.task ((hostAnswered atom).d.ownerOf 1) = some kernelTask ∧
    ((hostAnswered atom).d.caravan 0 0).isSome = true := by
  revert atom
  decide +kernel

/-! ### Igtik: barriers, counters, tallies, fences, gatherings -/

/-- Lanes 1 to 31 wait at BAR.C with all lanes in the mask, or lanes 0 to 30 have exited. -/
def almost (t : Thread) (l0 : Nat) : State := running (fun c => { c with
  thr := (List.range 31).map fun l => (l + l0, t) }) id id
def barAll : BaseW := regsW 0 0 0 0 1

theorem wit_barC : At 6 0 barAll plain ∧ At 6 0 (regsW 0 5 0 0 0) plain ∧ At 6 0 barAll (almost (.waitBarC 0xFFFFFFFF) 1) ∧
    At 6 0 barAll (almost .exited 0) := by decide +kernel

/-- BAR.G 15 of caravan 0, mask in g1. -/
def withMask (m : Nat) : State := running (fun c => { c with g := setLanes zeroWord 32 lanes (fun _ => BitVec.ofNat 32 m) [] }) id id
def barGW : BaseW := regsW 0 1 0 0 15

theorem wit_barG (m : Nat) (h : m ∈ [1, 0xFFFF]) : let s := coded 6 1 barGW (withMask m)
    At 6 1 barGW (withMask m) ∧ (ctx s barGW).exec ≠ [] ∧ kernelTask.ended = false ∧
    (∀ l ∈ (ctx s barGW).exec, ((ctx s barGW).va l).toNat % 65536 = m) ∧
    bit m (ctx s barGW).c.index = true ∧ (s.d.quire 0).stalls = [] ∧
    ∀ y ∈ (s.d.quire 0).caravans, y.slot = 0 → y = (ctx s barGW).c := by
  revert m
  decide +kernel

/-- Counters with immediates: 0 and 31, the latter bound to a running stream. -/
def bound : State := running id (fun q => { q with streams := [(15, { noStream 15 with
  state := 1, task := 1, units := 1, rows := 4, logSlots := 1, next := 4, released := 1 })] }) id

theorem wit_counters (k : Nat) (h : k ∈ [0, 31]) : let s := coded 6 2 (immW 0 0 k 2) bound
    At 6 2 (immW 0 0 k 2) bound ∧ At 6 3 (immW 0 0 k 2) bound ∧ At 6 2 (regsW 0 1 0 0 k) plain ∧ At 6 3 (regsW 0 1 0 0 k) plain ∧
    (s.d.quire 0).late = [] ∧ (s.d.quire 0).leafWork 0 0xFFFFFFFF = [] ∧ (ctx s (immW 0 0 k 2)).exec ≠ [] ∧
    (s.d.quire 0).bound 31 = true ∧ (s.d.quire 0).bound 0 = false ∧
    (∀ l ∈ (ctx s (immW 0 0 k 2)).exec, 0 < ((ctx s (immW 0 0 k 2)).arg l).toInt) ∧
    ((s.d.quire 0).stream 15).dropped = [] := by
  revert k
  decide +kernel

/-- Tallies: the last of the partition in g1, one of them FAULTED. -/
def tallied : State := ⟨[], (Act.set (TLY_VALUE_FAULTED 255) 1).run (withMask 255).d⟩

theorem wit_tallies (s : State) (h : s ∈ [withMask 255, tallied]) : At 6 4 (regsW 0 1 2 0 0) s ∧
    At 6 5 (regsW 0x147 1 1 0 0) s ∧ At 6 5 (regsW 0xFF 1 2 0 0) s ∧
    ∀ l ∈ (ctx s (regsW 0 1 2 0 0)).exec, s.d.relTally 0 ((ctx s (regsW 0 1 2 0 0)).va l).toNat = some 255 := by
  revert s
  decide +kernel

/-- A thread that waits for tally 255 to reach 2^31. -/
def tallyWaits : State := running (fun c => { c with thr := [(31, .waitTally 255 (2 ^ 31) 0xFF)] }) id id

theorem wit_tally_wakes : tallyWaits.d.tallyPart 255 = some 0 ∧ tallyWaits.d.pageOpen 0 = true ∧
    tallyWaits.d.flag (TLY_VALUE_FAULTED 255) = false ∧
    (∃ c ∈ (tallyWaits.d.quire 0).caravans, c.stopping = false ∧ c.thread 31 = .waitTally 255 (2 ^ 31) 0xFF ∧
      ∀ x ∈ (tallyWaits.d.quire 0).caravans, x.slot = c.slot → x = c) ∧
    (2 ^ 31 + tallyWaits.d.added 255) % 2 ^ 32 = 2 ^ 31 := by decide +kernel

/-- An access of lane 3 to device memory that a remote write keeps outstanding. -/
def fenced : State := running id (fun q => { q with accs := [{ slot := 0, lanes := 8, space := 1, id := 1 }] })
  fun e => { e with
    memWaits := [{ id := 1, quire := 0, slot := 0, lanes := [(3, 0)], host := false, dst := 2, width := 4, sext := false,
                   ret := false, atom := some (0, false), vals := [(3, 1, 0)], old := [], got := [],
                   want := [⟨false, lineKey 0 0⟩], poison := false }] }

theorem wit_fence : let s := coded 6 6 (regsW 0 0 0 0 1) fenced
    At 6 6 (regsW 0 0 0 0 1) fenced ∧ s.d.accessOpen 0 1 = true ∧ 3 ∈ (ctx s (regsW 0 0 0 0 1)).exec := by decide +kernel

/-- A KERNEL task with a gathering to place. -/
def placing : State := linkedWith fun e => { e with nextTask := 2, tasks := [{ kernelTask with desc := kernel }] }

theorem wit_place : placing.d.frontTask 0 0 = some { kernelTask with desc := kernel } ∧
    placing.d.task 1 = some { kernelTask with desc := kernel } ∧ dCaravans kernel = 1 ∧
    (placing.d.activeQuires 0 0).find? (fun n => (placing.d.quire n).hasRoom { kernelTask with desc := kernel }) ≠ none := by
  decide +kernel

/-- A caravan that has ended, and one that a stop has reached. -/
def finished (stopping : Bool) : State := running (fun c => { c with
  stopping := stopping, thr := if stopping then [] else (List.range 32).map fun l => (l, .exited) }) id id

theorem wit_drained (b : Bool) : ((finished b).d.caravan 0 0).isSome = true ∧ ∀ c, (finished b).d.caravan 0 0 = some c →
    c.stopping = true ∨ (c.live = [] ∧ (finished b).d.slotQuiet 0 c = true ∧ ((finished b).d.quire 0).streams = [] ∧
      ((finished b).d.quire 0).copies = []) := by
  cases b <;> refine ⟨by decide +kernel, ?_⟩ <;> intro c h <;> cases h <;> decide +kernel

/-- A barrier that has stalled, with a watchdog that ends the task or not. -/
def stalled (action : Nat) : State := ⟨[], (Act.all [Act.set (THR_WDOG_LIMIT 0) 1, Act.set (THR_WDOG_ACTION 0) action]).run
  (running id (fun q => { q with stalls := [⟨1, 63, 1, 0, 0, 8, 0xFFFFFFFF, 0, none⟩] }) id).d⟩

theorem wit_watchdog (a : Nat) (h : a ∈ [0, 1]) : (stalled a).d.alive = true ∧
    ((stalled a).d.quire 0).stalls[0]? = some ⟨1, 63, 1, 0, 0, 8, 0xFFFFFFFF, 0, none⟩ ∧
    (stalled a).d.fld (THR_WDOG_LIMIT 0) ≠ 0 ∧ (stalled a).d.quirePart 0 = some 0 ∧
    (stalled a).d.flag (THR_WDOG_ACTION 0) = decide (a = 1) ∧ (stalled a).d.task 1 = some kernelTask ∧
    kernelTask.ended = false ∧ (stalled a).d.ownerOf 1 = 1 ∧
    (∀ st ∈ ((stalled a).d.quire 0).stalls, ((stalled a).d.quire 0).collComplete st = false) := by
  revert a
  decide +kernel

/-! ### Igtik: collectives, the matrix unit and the vector engine -/

/-- What IssuesLong asks of a context, as one conjunction. -/
abbrev IssuesLongAll (d : Dev) (sel : Sel) (cls op : Nat) (w : LongW) (x : LCtx) : Prop :=
  (d.alive = true ∧ (sel.quire < 1536 ∧ x.task.part < 64) ∧ d.running sel.quire sel.slot = some (x.c, x.g, x.task) ∧
    x = d.lctx sel x.c x.g x.task w ∧ d.fetch x.task sel.pc = .long cls op w ∧ d.fetchBusy x.task sel.pc = []) ∧
  ((d.nextSlot sel.quire = some sel.slot ∧ d.nextPath sel.quire sel.slot = some sel.pc) ∧ longIllegal cls op w = false ∧
    (longShape cls op w).perThread w = false) ∧
  (∃ l ∈ x.c.path x.pc ++ x.c.collWait x.pc x.mask, bit x.mask l = true) ∧
  (∀ l ∈ x.c.live, bit x.mask l = true → l ∈ x.c.path x.pc ∨ l ∈ x.c.collWait x.pc x.mask) ∧ d.longVerdict x cls op ≠ .held

theorem issuesLong_of {d : Dev} {sel : Sel} {cls op : Nat} {w : LongW} {x : LCtx} (h : IssuesLongAll d sel cls op w x) :
    IssuesLong d sel cls op w x :=
  ⟨h.1.1, h.1.2.1, h.1.2.2.1, h.1.2.2.2.1, h.1.2.2.2.2.1, h.1.2.2.2.2.2, h.2.1.1, h.2.1.2.1, h.2.1.2.2, h.2.2.1, h.2.2.2.1,
    h.2.2.2.2⟩

/-- The device with caravan 0 in slot 0 of a quire, changed as a test wants it. -/
def runningOn (n : Nat) (c : Caravan → Caravan) (q : Quire → Quire) (f : Eng → Eng) : State :=
  linkedWith fun e => f { e with
    nextTask := 2, tasks := [kernelTask]
    quires := [(n, q { Quire.idle with caravans := [c caravan0], gaths := [gath0] })] }

def ctxL (s : State) (n : Nat) (w : LongW) : LCtx :=
  { n := n, slot := 0, pc := 0, now := s.d.now, task := (s.d.task 1).getD kernelTask, g := gath0
    c := (s.d.caravan n 0).getD caravan0, mask := w.cmask.toNat, w := w }

/-- A collective of all lanes: its descriptor at leaf address 0 (gz), or at the address in u1. -/
def collW (dst a b c ext : Nat) : LongW :=
  { guard := 0, dst := dst, a := a, b := b, c := c, mod := 0, cont := 0x1F, ext := ext, cmask := 0xFFFFFFFF }

/-- A leaf that begins with a number. -/
def leafWith (v : Nat) (q : Quire) : Quire := q.leafPut gath0 0 (leBytes 32 v)

/-- A long instruction at the first address of its kernel issues on quire n. -/
def issuingL (n cls op : Nat) (w : LongW) (s : State) : Bool :=
  decide (IssuesLongAll (codedL cls op w s).d ⟨n, 0, 0⟩ cls op w (ctxL (codedL cls op w s) n w))

abbrev AtL (n cls op : Nat) (w : LongW) (s : State) : Prop := issuingL n cls op w s = true

theorem issuesLong_at {n cls op : Nat} {w : LongW} {s : State} (h : AtL n cls op w s) :
    IssuesLong (codedL cls op w s).d ⟨n, 0, 0⟩ cls op w (ctxL (codedL cls op w s) n w) := issuesLong_of (of_decide_eq_true h)

/-- Descriptors of physical form: BF16, and a logical FP32 one; rows lie at 4096. -/
def tile16 : Nat := 4096 + 4096 * 2 ^ 32 + 64 * 2 ^ 128 + 64 * 2 ^ 144 + 2 ^ 192 + 2 ^ 196
def tile32 : Nat := 4096 + 4096 * 2 ^ 32 + 128 * 2 ^ 128 + 128 * 2 ^ 144

def mtx (n v : Nat) : State := runningOn n id (leafWith v) id

/-- Both weight sets hold halves of an FP32 block. -/
def halves : State := runningOn 0 id (fun q => leafWith tile32 { q with mtx := { q.mtx with
  set0 := { q.mtx.set0 with pair := 1 }, set1 := { q.mtx.set1 with pair := 1 } } }) id

theorem wit_mtx : ∀ k ∈ [(MKind.mtileF, 0, tile16, 0x17F), (.mtileB, 1, tile16, 0x1FF),
      (.mload, 3, tile16, 0), (.mloadT, 4, tile16, 0), (.mstore, 5, tile16, 0x7F)],
    let n := if k.1 = .mtileB ∨ k.1 = .mloadT then 1535 else 0
    let w := collW 0xFF 0xFF 0 0 k.2.2.2
    let s := codedL 8 k.2.1 w (mtx n k.2.2.1)
    AtL n 8 k.2.1 w (mtx n k.2.2.1) ∧ (ctxL s n w).va.toNat % 16 = 0 ∧ (ctxL s n w).descriptor s.d 32 = some k.2.2.1 ∧
    mtxFault s.d n gath0 k.1 (tileOf k.2.2.1) (field w.ext 0 8) = none := by decide +kernel

theorem wit_mtileX : let w := collW 0xFF 0xFF 0 0 0
    let s := codedL 8 2 w halves
    AtL 0 8 2 w halves ∧ (ctxL s 0 w).descriptor s.d 32 = some tile32 ∧ mtxFault s.d 0 gath0 .mtileX (tileOf tile32) 0 = none := by
  decide +kernel

/-- Records that make this device rank `own` of a job of four, on two boards; rank 0 is the job manager. -/
def ranksOf (own : Nat) : ImgRec :=
  { ty := rtRanks, flags := 0, key := 0
    body := leBytes 8 77 ++ leBytes 2 4 ++ leBytes 2 own ++ leBytes 4 0 ++
      ([(0, 1, 3), (0, 0, 0), (1, 3, 1), (1, 2, 0)].map fun x =>
        leBytes 2 x.1 ++ leBytes 2 x.2.1 ++ [0, BitVec.ofNat 8 x.2.2] ++ leBytes 2 0).flatten }

/-- The same device as a rank, with pools of the default sizes and a MANAGER overlay of a tier. -/
def asRank (own tier : Nat) (s : State) : State := ⟨[], (Act.eng fun e => { e with cfg := { e.cfg with
  base := (e.cfg.base.filter fun r => r.ty != rtPools) ++ [ranksOf own]
  mgr := [{ ty := rtManager, flags := 0, key := 0, body := leBytes 8 tier }] } }).run s.d⟩

/-- GSEND from the last quire with the leaf header's fields 0, its descriptor 16 bytes of zeros. -/
def sendingOf (n : Nat) : State := ⟨[], (Act.set (TRN_SHARD_SLOTS_SLOTS 0) 1).run (asRank 1 0 (mtx n 0)).d⟩

theorem wit_gsend : let w := collW 0xFF 0xFF 0 0 0xF8
    let s := codedL 11 2 w (sendingOf 1535)
    AtL 1535 11 2 w (sendingOf 1535) ∧ (ctxL s 1535 w).va.toNat % 16 = 0 ∧ (ctxL s 1535 w).descriptor s.d 16 = some 0 ∧
    0 < s.d.accumCount 0 ∧
    0 < s.d.fld (TRN_SHARD_SLOTS_SLOTS 0) * s.d.shardRanks 0 ∧ isRecto 1535 = false ∧ field w.ext 0 8 + 8 ≤ accTiles 1535 := by
  decide +kernel

/-- An instruction in a matrix unit's queue. -/
def mop (kind : MKind) (v tile gdesc : Nat) : MOp :=
  ⟨1, 0, 1, 0, 0xFFFFFFFF, kind, tile, true, tileOf v, [], 0, 0, gdesc⟩
def withQueue (n : Nat) (o : MOp) (f : Mtx → Mtx) : State :=
  runningOn n id (fun q => { q with mtx := f { q.mtx with queue := [o] } }) id

theorem wit_loadStart : ∀ k ∈ [MKind.mload, .mloadT], let s := withQueue 1535 (mop k tile16 0 0) id
    s.d.alive = true ∧ (mop k tile16 0 0).loads = 0 ∧ (mop k tile16 0 0).passes = 0 ∧
    (s.d.quire 1535).mtx.queue = [mop k tile16 0 0] ∧ (s.d.quire 1535).gathering 1 0 = some gath0 ∧
    (mop k tile16 0 0).desc.fmtB ∈ [1, 2, 3, 4, 6] ∧ (mop k tile16 0 0).desc.cplx = false := by decide +kernel

def loadingSet : State := withQueue 0 (mop .mtileF tile16 127 0) fun m => { m with loading := [(9, 1, WSet.zero)] }

theorem wit_setReady : loadingSet.d.alive = true ∧ (loadingSet.d.quire 0).mtx.loading = [(9, 1, WSet.zero)] := by decide +kernel

theorem wit_passStart : let s := withQueue 0 (mop .mtileF tile16 127 0) id
    let o := mop .mtileF tile16 127 0
    s.d.alive = true ∧ (s.d.quire 0).mtx.queue = [o] ∧ o.desc.logical = false ∧ o.desc.fmtA ∈ [1, 2] ∧
    (s.d.quire 0).mtx.sets.serve o.kind o.desc = true ∧ (s.d.quire 0).gathering 1 0 = some gath0 ∧
    (s.d.quire 0).mtx.loading = [] ∧ (s.d.quire 0).mtx.passes = [] := by decide +kernel

def passing : State := withQueue 0 (mop .mtileF tile16 127 0) fun m =>
  { m with passes := [⟨1, [127], [(127 * 256, 1), (127 * 256 + 255, 2)]⟩] }

theorem wit_passResult : (passing.d.quire 0).mtx.passes = [⟨1, [127], [(127 * 256, 1), (127 * 256 + 255, 2)]⟩] ∧
    ([(127 * 256, (1 : Word)), (127 * 256 + 255, 2)].map Prod.fst).Nodup := by decide +kernel

theorem wit_mstore : let s := withQueue 0 (mop .mstore tile16 127 0) id
    let o := mop .mstore tile16 127 0
    (s.d.quire 0).mtx.queue = [o] ∧ (s.d.quire 0).tilesReady o = true ∧ (s.d.quire 0).gathering 1 0 = some gath0 ∧
    gath0.pages.Nodup ∧ o.desc.cplx = false ∧ o.desc.rnd < 2 ∧ o.desc.fmtA ∈ [0, 1, 2, 3, 4, 6] ∧
    colsOf o.desc * esize o.desc.fmtA ≤ o.desc.lda ∧
    o.desc.aOff + (rowsOf o.desc - 1) * o.desc.lda + colsOf o.desc * esize o.desc.fmtA ≤ gath0.size := by decide +kernel

theorem wit_gsendSent : let s := asRank 1 0 (withQueue 1535 (mop .gsend 0 248 0) id)
    let o := mop .gsend 0 248 0
    (s.d.quire 1535).mtx.queue = [o] ∧ (s.d.quire 1535).tilesReady o = true ∧ s.d.task 1 = some kernelTask ∧
    s.d.holdsRank 0 = true ∧ s.d.eng.pwr.stopping = false := by decide +kernel

/-- Vector words: DST and SRC_A from u1, which names vector register 31 or a leaf address, one or 4,096 elements. -/
def vecW (func : Nat) (n : Nat) (b : Nat) : LongW := collW 0x101 0x101 b 0 (n + func * 2 ^ 13)
def vec (u1 : Nat) (f : Vec → Vec) : State :=
  runningOn 1535 (fun c => { c with u := [(1, BitVec.ofNat 32 u1)] }) (fun q => { q with vec := f q.vec }) id

theorem wit_vec : ∀ k ∈ [(VKind.vop, (9, 0), 0, 0x101, 4096), (.vop, (9, 0), 6, 0, 1), (.vcompress, (9, 1), 0, 0x101, 1),
      (.vexpand, (9, 2), 0, 0x101, 1), (.vred, (9, 3), 0, 0, 1), (.vld, (9, 4), 0, 0, 2047), (.vst, (9, 5), 0, 0, 2047),
      (.dmask, (11, 0), 0, 0x101, 1)],
    let w := vecW k.2.2.1 k.2.2.2.2 k.2.2.2.1
    let s := codedL k.2.1.1 k.2.1.2 w (vec 4 id)
    AtL 1535 k.2.1.1 k.2.1.2 w (vec 4 id) ∧ (ctxL s 1535 w).va.toNat = 4 ∧
    (k.1.leafRef 4 4).all (fun a => a % 4 == 0 && !gath0.refuses 1535 a (k.2.2.2.2 * 4) (s.d.cluster 1535)) = true := by decide +kernel

def vop (kind : VKind) (n d a : Nat) : VOp :=
  ⟨1, 0, 1, 0, 0xFFFFFFFF, kind, n, 3, 0, 0, d, a, 5, 1, 0, 0, 0, 0, []⟩

theorem wit_vecStart : let s := vec 0 fun v => { v with queue := [vop .vop 64 31 (2 ^ 30 + 65532)] }
    let o := vop .vop 64 31 (2 ^ 30 + 65532)
    (s.d.quire 1535).vec.queue = [o] ∧ (s.d.quire 1535).vec.free o = true ∧ refScalar o.d = false := by decide +kernel

theorem wit_vldStart : let s := vec 0 fun v => { v with queue := [vop .vld 2048 0 0] }
    let o := vop .vld 2048 0 0
    (s.d.quire 1535).vec.queue = [o] ∧ (s.d.quire 1535).vec.free o = true ∧ s.d.vecLeaf 1535 o = some (1535, gath0, 0) ∧
    (s.d.quire 1535).vec.run = [] := by decide +kernel

def vecRunning (r : VRun) : State := vec 0 fun v => { v with run := [r] }

theorem wit_vecEnd : ((vecRunning ⟨vop .vred 1 0 0, [(8191, 1)], [(63, 9)], []⟩).d.caravan 1535 0).isSome = true ∧
    ((vecRunning ⟨vop .vst 1 8188 0, [], [], [1, 2, 3, 4]⟩).d.vecLeaf 1535 (vop .vst 1 8188 0)) = some (1535, gath0, 8188) ∧
    (vop .vst 1 8188 0).n * (vop .vst 1 8188 0).z = 4 := by decide +kernel

/-! ### Igtik: the access engine -/

def copyDesc (ss src ds dst n : Nat) : Nat := src + ss * 2 ^ 48 + ds * 2 ^ 50 + dst * 2 ^ 64 + n * 2 ^ 112
def allLanes (ext : Nat) : LongW := collW 0xFF 0xFF 0 0 ext

/-- The last 16 bytes of partition 0 to the last of the leaf, and back. -/
theorem wit_acopy : ∀ k ∈ [(1, 824633720816, 0, 8176), (0, 8176, 1, 824633720816)],
    let v := copyDesc k.1 k.2.1 k.2.2.1 k.2.2.2 1
    let s := codedL 10 0 (allLanes 31) (mtx 0 v)
    let x := ctxL s 0 (allLanes 31)
    AtL 0 10 0 (allLanes 31) (mtx 0 v) ∧ x.va.toNat % 16 = 0 ∧ x.descriptor s.d 16 = some v ∧ s.d.taskView 1 = none ∧ x.task.epoch = none ∧
    (field v 48 2, field v 50 2, field v 0 48, field v 64 48, field v 112 16) = (k.1, k.2.2.1, k.2.1, k.2.2.2, 1) ∧
    s.d.inMemory 0 824633720816 16 = true ∧ s.d.hostBusy 0 824633720816 16 = [] ∧
    s.d.poisoned 0 none 824633720816 16 = false ∧ s.d.leafAt 0 x.g 8176 16 true = some (0, gath0) ∧ gath0.pages.Nodup := by
  decide +kernel

theorem wit_acopy_free : FreeLines (codedL 10 0 (allLanes 31) (mtx 0 (copyDesc 0 8176 1 824633720816 1))).d 0 824633720816 16 :=
  free_of (by decide +kernel)

/-- A copy that has moved its bytes. -/
def copied : State := running id (fun q => { q with copies := [⟨1, 1, 0, 0, 0, 31⟩] }) id

theorem wit_acopyDone : ((copied.d.quire 0).copies.find? fun c => c.id == 1) = some ⟨1, 1, 0, 0, 0, 31⟩ ∧
    copied.d.busy 1 = false ∧ (copied.d.quire 0).bound 31 = false ∧ (copied.d.quire 0).gaths ≠ [] := by decide +kernel

/-- Context 15: one slot of one line at the end of the leaf. -/
def startDesc : Nat := 64 + 1 * 2 ^ 52 + 65535 * 2 ^ 64 + 2 ^ 80 + 8128 * 2 ^ 104

theorem wit_astart : let w := allLanes (15 * 32)
    let s := codedL 10 1 w (mtx 0 startDesc)
    let x := ctxL s 0 w
    AtL 0 10 1 w (mtx 0 startDesc) ∧ AtL 0 10 2 w (mtx 0 startDesc) ∧ x.va.toNat % 16 = 0 ∧ x.descriptor s.d 16 = some startDesc ∧
    field w.ext 5 4 = 15 ∧
    field startDesc 0 48 % 64 = 0 ∧ field startDesc 104 19 % 64 = 0 ∧ field startDesc 52 12 ≠ 0 ∧ field startDesc 64 16 ≠ 0 ∧
    field startDesc 104 19 + 2 ^ field startDesc 123 3 * (field startDesc 52 12 * 64) ≤ x.g.size := by decide +kernel

/-- A stream of context 15 whose rows of one line lie at the end of partition 0, two slots in the leaf. -/
def stream15 : Stream := { noStream 15 with
  state := 1, task := 1, units := 1, rows := 2, stride := 1, mem := 824633720704, leaf := 8064, logSlots := 1 }
def streaming (f : Stream → Stream) : State := running id (fun q => { q with streams := [(15, f stream15)] }) id

theorem wit_rowFetch : let s := streaming fun st => { st with next := 1 }
    ((s.d.quire 0).stream 15).next < 2 ^ 1 + min ((s.d.quire 0).stream 15).released ((s.d.quire 0).counter 31) ∧
    ((s.d.quire 0).stream 15).next < 2 := by decide +kernel

def flying (f : Stream → Stream) : State := streaming fun st => f { st with next := 2, flight := [(0, 1), (1, 1)] }

theorem wit_rowLand (r : Nat) (h : r ∈ [0, 1]) : let s := flying id
    let st := (s.d.quire 0).stream 15
    (st.flight.find? fun x => x.1 == r) = some (r, 1) ∧ s.d.busy 1 = false ∧ s.d.task 1 = some kernelTask ∧
    s.d.rowRefused st r = none ∧ s.d.taskView 1 = none ∧ s.d.hostBusy 0 (st.rowAt r) 64 = [] ∧
    (s.d.quire 0).gathering 1 0 = some gath0 ∧ gath0.pages.Nodup ∧ st.slotAt r + 64 ≤ gath0.size ∧ st.ahead = [] := by
  revert r
  decide +kernel

theorem wit_rowDrop : let s := flying fun st => { st with mem := 824633720768 }
    let st := (s.d.quire 0).stream 15
    (st.flight.find? fun x => x.1 == 1) = some (1, 1) ∧ 1 ∉ st.demand ∧ (s.d.rowRefused st 1).isSome = true ∧
    (s.d.quire 0).awaited 31 ≤ 1 := by decide +kernel

theorem wit_rowWrite : let s := streaming fun st => { st with write := true, released := 2, next := 1 }
    let st := (s.d.quire 0).stream 15
    st.state = 1 ∧ st.filled = true ∧ s.d.task 1 = some kernelTask ∧ s.d.taskView 1 = none ∧
    (s.d.quire 0).gathering 1 0 = some gath0 ∧
    s.d.storeHolds 0 0 0xFFFFFFFF [spanAt (0, gath0) (st.slotAt 1) 64] = false ∧ s.d.accessRefused st 1 = none ∧
    FreeLines s.d 0 (st.rowAt 1) 64 := by
  refine ⟨by decide +kernel, by decide +kernel, by decide +kernel, by decide +kernel, by decide +kernel, by decide +kernel,
    by decide +kernel, free_of (by decide +kernel)⟩

theorem wit_rowAccepted : let s := flying fun st => { st with write := true }
    (((s.d.quire 0).stream 15).flight.find? fun x => x.1 == 0) = some (0, 1) ∧ s.d.busy 1 = false := by decide +kernel

theorem wit_streamDrained : let s := streaming fun st => { st with state := 2 }
    ((s.d.quire 0).stream 15).state = 2 ∧ ((s.d.quire 0).stream 15).flight = [] := by decide +kernel

/-! ### Gathers, epochs and training writes -/

/-- A rank with the shard at 0 and two slots, running a PGATHER: tiles, position, RELEASE and direction. -/
def gathering (v : Nat) (q : Quire → Quire) : State := ⟨[], (Act.set (TRN_SHARD_SLOTS_SLOTS 0) 2).run
  (asRank 1 0 (runningOn 0 id (fun x => q (leafWith v x)) id)).d⟩
def gatherDesc (first tiles pos dst dir release : Nat) : Nat :=
  first + tiles * 2 ^ 32 + pos * 2 ^ 48 + dst * 2 ^ 64 + dir * 2 ^ 104 + release * 2 ^ 105

theorem wit_pgather : ∀ v ∈ [gatherDesc 0 0 0 0 1 1, gatherDesc 7 1 3 5 0 0, gatherDesc 5 1 2 5 1 0],
    let s := codedL 11 1 (allLanes 31) (gathering v id)
    let x := ctxL s 0 (allLanes 31)
    AtL 0 11 1 (allLanes 31) (gathering v id) ∧ x.va.toNat % 16 = 0 ∧ x.descriptor s.d 16 = some v ∧ field v 106 22 = 0 ∧ x.task = kernelTask ∧
    s.d.task 1 = some kernelTask ∧ (s.d.quire 0).gathers = [] ∧ s.d.fld (TRN_SHARD_SLOTS_SLOTS 0) * s.d.shardRanks 0 = 8 ∧
    s.d.prefetchLayers 0 = 2 ∧ s.d.fld (relField 0 0) = 0 ∧ s.d.fld (relField 0 1) = 0 := by decide +kernel

theorem wit_ownTile : let s := codedL 11 1 (allLanes 31) (gathering (gatherDesc 5 1 2 5 1 0) id)
    s.d.ownTile 0 5 = true ∧ s.d.ownTileAt 0 5 = 4096 ∧ s.d.inMemory 0 4096 4096 = true ∧ s.d.hostBusy 0 4096 4096 = [] ∧
    s.d.poisoned 0 none 4096 4096 = false ∧ s.d.inMemory 0 20480 4096 = true ∧ FreeLines s.d 0 20480 4096 := by
  refine ⟨by decide +kernel, by decide +kernel, by decide +kernel, by decide +kernel, by decide +kernel, by decide +kernel,
    free_of (by decide +kernel)⟩

def held (started : Bool) : State := gathering 0 fun q => { q with gathers := [⟨1, 1, 0, 0, 31, 5, 1, 2, 20480, 0, started⟩] }

theorem wit_pgatherAdmit : ((held false).d.quire 0).gathers.find? (fun g => g.id == 1 && !g.started) =
      some ⟨1, 1, 0, 0, 31, 5, 1, 2, 20480, 0, false⟩ ∧ (held false).d.task 1 = some kernelTask ∧
    (held false).d.taskView 1 = none ∧ (held false).d.gatherAdmitted 0 ⟨1, 1, 0, 0, 31, 5, 1, 2, 20480, 0, false⟩ = true ∧
    (held true).d.busy 1 = false ∧ ((held true).d.quire 0).bound 31 = false ∧ ((held true).d.quire 0).gaths ≠ [] ∧
    (held false).d.ownTile 0 5 = true ∧ (held false).d.ownTileAt 0 5 = 4096 ∧ (held false).d.hostBusy 0 4096 4096 = [] ∧
    (held false).d.poisoned 0 none 4096 4096 = false := by decide +kernel

theorem wit_pgatherAdmit_free : FreeLines (held false).d 0 20480 4096 := free_of (by decide +kernel)

/-- PROOF with its epoch in u1, and a partition in which epoch 5 is open in slot 3 with one version. -/
def proofW : LongW := collW 0xFF 0x101 0 0 0
def proving (o : Nat) : State := ⟨[], (Act.all [Act.set (TRN_PROOF_SLOT_VALID 0 3) o, Act.set (TRN_PROOF_SLOT_EPOCH 0 3) 5]).run
  (runningOn 0 (fun c => { c with u := [(1, 5)] }) id fun e => { e with dune := { e.dune with
    versions := if o = 1 then [⟨0, 5, 9, 2 ^ 63 + 1, 0, [(0, 1), (64, 2), (4095, 3)], []⟩] else [] } }).d⟩

theorem wit_proof (o : Nat) (h : o ∈ [0, 1]) : let s := codedL 12 0 proofW (proving o)
    (∀ op ∈ [0, 1, 2], AtL 0 12 op proofW (proving o)) ∧ jobWide (ctxL s 0 proofW).va.toNat = false ∧ s.d.holdsRank 0 = false ∧
    (ctxL s 0 proofW).va.toNat = 5 ∧ s.d.epochOpen 0 5 = decide (o = 1) ∧
    ([0, 1, 2, 3].find? fun k => !s.d.flag (TRN_PROOF_SLOT_VALID 0 k)) = some 0 ∧
    (o = 1 → s.d.epochSlot 0 5 = some 3 ∧ (s.d.eng.dune.versions.filter fun v => v.part == 0 && v.epoch == 5).length = 1) := by
  revert o
  decide +kernel

theorem wit_proof_free : FreeLines (codedL 12 1 proofW (proving 1)).d 0 (9 * 4096) 4096 := free_of (by decide +kernel)

theorem wit_installDone : let s := linkedWith fun e => { e with dune := { e.dune with closing := [(0, 5)] } }
    (0, 5) ∈ s.d.eng.dune.closing ∧ s.d.eng.axl.home = [] := by decide +kernel

/-- TRN_RECORD at 64 bytes below the end, on or off, at a quiesce point or not. -/
def recordingAt (en stop : Nat) : State := ⟨[], (Act.all [Act.set (TRN_RECORD_EN 0) en, Act.set (TRN_RECORD_ADDR 0) (824633720768 / 64),
  Act.set (PART_CTRL_STOP 0) stop]).run linked.d⟩

theorem wit_trnWrite : (recordingAt 0 0).d.quiesced 0 = false ∧ (recordingAt 0 1).d.quiesced 0 = true ∧
    (recordingAt 0 1).d.flag (TRN_RECORD_EN 0) = false ∧ (recordingAt 1 1).d.quiesced 0 = true ∧
    (recordingAt 1 1).d.flag (TRN_RECORD_EN 0) = true ∧
    (recordingAt 1 1).d.inMemory 0 ((recordingAt 1 1).d.fld (TRN_RECORD_ADDR 0) * 64) 64 = true ∧
    FreeLines (recordingAt 1 1).d 0 ((recordingAt 1 1).d.fld (TRN_RECORD_ADDR 0) * 64) 64 := by
  refine ⟨by decide +kernel, by decide +kernel, by decide +kernel, by decide +kernel, by decide +kernel, by decide +kernel,
    free_of (by decide +kernel)⟩

/-! ### Packets -/

theorem arrives_of {d : Dev} {port : Nat} {k : Pkt} {p : Nat}
    (h : (d.alive = true ∧ p < 64 ∧ port < 32 ∧ d.portUp port = true) ∧
      ((k.bySlot = false ∧ d.hasRanks = true ∧ k.dest = d.ownRank ∧ d.rankPart = some p) ∨
        (k.bySlot = true ∧ 4 ≤ port ∧ d.eng.pwr.straps.slot ^^^ port / 4 = k.src ∧ k.dest = d.eng.pwr.straps.slot ∧
          k.part = p ∧ k.srcPart = p ∧ d.slotAccept p = true)) ∧
      d.underReset p = false ∧ k.epoch = 0 ∧ d.winOf p k = none) : Arrives d port k p :=
  ⟨h.1.1, h.1.2.1, ⟨h.1.2.2.1, h.1.2.2.2⟩, h.2.1, h.2.2.1, h.2.2.2.1, fun _ w hw => by
    rw [h.2.2.2.2] at hw
    cases hw⟩

/-- Rank `own` of four with port 31 UP, changed as a test wants it. -/
def node (own tier : Nat) (l : List (Fld × Nat)) (f : Eng → Eng) : State :=
  ⟨[], (Act.all (.eng f :: Act.set (FAB_PORT_STATUS_STATE 31) 2 :: l.map fun x => Act.set x.1 x.2)).run
    (asRank own tier linked).d⟩

/-- A packet by rank, and one BY_SLOT from the slot opposite port 31. -/
def byRank (kind dest src addr arg : Nat) (data : List Byte) : Pkt :=
  { dest := dest, src := src, kind := kind, tc := 0, vl := 0, bySlot := false, poison := false, hops := 0, epoch := 0,
    seq := 7, incarnation := 0, part := 0, srcPart := 0, addr := addr, arg := arg, data := data }
def bySlot (kind addr arg : Nat) (data : List Byte) : Pkt :=
  { byRank kind 0 7 addr arg data with bySlot := true }

theorem wit_arrives (k : Pkt) (h : k.epoch = 0) (hs : k.bySlot = false) (hd : k.dest = 1) : Arrives (node 1 0 [] id).d 31 k 0 :=
  arrives_of ⟨by decide +kernel, .inl ⟨hs, by decide +kernel, by rw [hd]; decide +kernel, by decide +kernel⟩,
    by decide +kernel, h, by rfl⟩

theorem wit_arrives_slot : Arrives (node 1 0 [] id).d 31 (bySlot pkService 0 0 []) 0 := arrives_of (by decide +kernel)

/-! ### Gradient reduction -/

/-- Rank 1 in attempt (1, 0) with a shard of two slots, leaves at 0 and roots at 2^20. -/
def owner (f : Eng → Eng) : State := node 1 0 [(TRN_SHARD_SLOTS_SLOTS 0, 2), (TRN_STEP_STEP 0, 1), (RED_LEAF_BASE_BASE 0, 0),
  (RED_ROOT_BASE_BASE 0, 256), (RED_GATE_TALLY 0, 0xFFFF)] f

/-- REDUCE of tile 5 from rank 0: zeros. -/
def reduceOf : Pkt := byRank pkReduce 1 0 0 0 (redHeader 1 0 0 5 0 0 9 0xFFFF 0 ++ List.replicate 4096 0)

theorem wit_reduce : Arrives (owner id).d 31 { reduceOf with kind := pkReduce } 0 := arrives_of (by decide +kernel)

theorem wit_reduce_data : let d := (owner id).d
    let h := reduceOf.data.take 64
    reduceOf.data.length = 4160 ∧ (rhStep h, rhAttempt h) = d.tag 0 ∧ rhMb h = 0 ∧ 0 < d.accumCount 0 ∧ rhRank h = 0 ∧
    rhTile h = 5 ∧ 0 ∉ d.dropSet 0 ∧ 0 < d.shardRanks 0 ∧ d.redOwner 0 5 = d.redRank 0 ∧ rhSum h = 0 ∧ rhNf h = 0 ∧
    d.eng.pwr.stopping = false := by decide +kernel

theorem wit_reduce_zeros : reduceOf.data.drop 64 = List.replicate 4096 0 := List.drop_left' (by decide +kernel)

theorem leNat_zeros (n : Nat) : leNat (List.replicate n 0) = 0 := by
  induction n with
  | zero => rfl
  | succ n ih => simp [leNat, List.replicate_succ] at *; omega

theorem redElem_zeros (e : Nat) : redElem (List.replicate 4096 0) e = .fin false 0 (-133) := by
  have : leAt (List.replicate 4096 0) (2 * e) 2 = 0 := by
    simp only [leAt, List.drop_replicate, List.take_replicate, leNat_zeros]
  rw [redElem, this]
  decide +kernel

theorem intSum_zeros (l : List Nat) (f : Nat → Int) (h : ∀ x ∈ l, f x = 0) : intSum (l.map f) = 0 := by
  have g : ∀ (l : List Nat) (a : Int), (∀ x ∈ l, f x = 0) → (l.map f).foldl (· + ·) a = a := by
    intro l
    induction l with
    | nil => simp
    | cons x l ih =>
      intro a h
      rw [List.map_cons, List.foldl_cons, h x (by simp), Int.add_zero]
      exact ih a fun y hy => h y (by simp [hy])
  exact g l 0 h

/-- The check that the zeros pass. -/
theorem wit_reduce_check : checksum (List.replicate 4096 0) = 0 ∧ nfCount (List.replicate 4096 0) = 0 := by
  constructor
  · rw [checksum, intSum_zeros _ _ fun x _ => by rw [redElem_zeros]; rfl]
    rw [Int.zero_emod]
    rfl
  · rw [nfCount, upTo, List.filter_eq_nil_iff.mpr fun e _ => by rw [redElem_zeros]; decide]
    rfl

theorem wit_reduce_place : let d := (owner id).d
    let leaf := d.leafAtSlot 0 (d.redSlot 0 5) 0
    let head := d.leafHeadAt 0 (d.redSlot 0 5) 0
    (leaf = 16384 ∧ d.inMemory 0 leaf 4096 = true ∧ d.inMemory 0 head 64 = true ∧ leaf + 4096 ≤ head ∧
    tagOlder (rhStep (d.leafHead 0 (d.redSlot 0 5) 0), rhAttempt (d.leafHead 0 (d.redSlot 0 5) 0)) (d.tag 0) = true) ∧
    FreeLines d 0 leaf 4096 ∧ FreeLines d 0 head 64 :=
  ⟨by decide +kernel, free_of (by decide +kernel), free_of (by decide +kernel)⟩

/-- A gradient send that waits for its answer, which says ACCEPTED or EARLY. -/
def sent : RedSend := ⟨0, 1, 0, 5, 0, [1, 2, 3], 2, 0, 31, true⟩
def answered (r : Nat) : Pkt := byRank pkReduceAnswer 1 2 0 0 (leBytes 4 1 ++ leBytes 2 0 ++ leBytes 2 1 ++ leBytes 4 5 ++
  leBytes 2 0 ++ leBytes 1 r ++ [0])
def reducing : State := owner fun e => { e with red := { e.red with sends := [sent] }, quires := [(0, { Quire.idle with gaths := [gath0] })] }

theorem wit_reduceAnswer (r : Nat) (h : r ∈ [0, 4]) : leAt (answered r).data 14 1 = r ∧
    (reducing.d.eng.red.sends.find? fun x => x.part == 0 && x.step == leAt (answered r).data 0 4 &&
      x.attempt == leAt (answered r).data 4 2 && x.tile == leAt (answered r).data 8 4 && x.mb == leAt (answered r).data 12 2) =
      some sent ∧ (reducing.d.quire 0).bound 31 = false ∧ (reducing.d.quire 0).gaths ≠ [] ∧ reducing.d.holdsRank 0 = true := by
  revert r
  decide +kernel

/-- A partition without a rank whose tree of tile 1 is at a stage, its one leaf complete. -/
def tree (stage : Nat) : Tree := ⟨0, 0, 0, 1, 1, 255, stage, 3, redHeader 0 0 0 1 1 2 3 0 0⟩
def growing (stage : Nat) : State := ⟨[], (Act.all [Act.set (TRN_SHARD_SLOTS_SLOTS 0) 2, Act.set (RED_LEAF_BASE_BASE 0) 0,
  Act.set (RED_ROOT_BASE_BASE 0) 256, .dyn fun d => Act.bytes (memKey 0 (d.leafHeadAt 0 1 0)) (redHeader 0 0 0 1 1 0 0 0 0)]).run
  (linkedWith fun e => { e with red := { e.red with trees := [tree stage] }, cfg := { e.cfg with
    base := e.cfg.base.filter fun r => r.ty != rtPools } }).d⟩

theorem wit_treeEvaluate : let d := (growing 0).d
    ((d.eng.red.trees.find? fun t => t.part == 0 && t.tile == 1 && t.stage == 0 && (t.step, t.attempt) == d.tag 0) =
      some (tree 0) ∧ padded (d.shardRanks 0) = 1 ∧ d.leafComplete 0 1 0 = true ∧
    d.hostBusy 0 (d.leafAtSlot 0 1 0) 4096 = [] ∧ d.redPoolUsed 0 + 4160 * d.redLevels 0 ≤ d.redPool 0 ∧
    d.inMemory 0 (d.rootAt 0 1) 4096 = true ∧ d.inMemory 0 (d.rootHeadAt 0 1) 64 = true) ∧ FreeLines d 0 (d.rootAt 0 1) 4096 :=
  ⟨by decide +kernel, free_of (by decide +kernel)⟩

theorem wit_treeEvaluate_root : ∃ x, rootOf ((growing 0).d.redLevels 0) ((growing 0).d.leafNodes 0 1) = .full x := ⟨_, rfl⟩

theorem wit_rootWrite : let d := (growing 1).d
    ((d.eng.red.trees.find? fun t => t.part == 0 && t.tile == 1 && t.stage == 1 && (t.step, t.attempt) == d.tag 0) =
      some (tree 1) ∧ d.busy 3 = false ∧ (tree 1).head.length = 64 ∧ d.relTally 0 255 = some 255 ∧ rhNf (tree 1).head = 2) ∧
    FreeLines d 0 (d.rootHeadAt 0 1) 64 := ⟨by decide +kernel, free_of (by decide +kernel)⟩

def done : State := owner fun e => { e with red := { e.red with
  closed := true, ownerDone := false, area := false, trees := [⟨0, 1, 0, 1, 1, 255, 2, 3, redHeader 1 0 0 1 1 0 3 0 0⟩] } }

theorem wit_ownerDone : done.d.rankPart = some 0 ∧ done.d.jobManagerRank = some 0 ∧ done.d.eng.red.closed = true ∧
    done.d.eng.red.ownerDone = false ∧ done.d.eng.red.area = false ∧ done.d.gateOpen 0 = true ∧
    ∀ t ∈ done.d.eng.red.trees, t.stage = 2 ∧ rhNf t.head = 0 := by decide +kernel

/-! ### The job manager and its ranks -/

/-- The job manager with attempt (1, 0) open, every rank but 3 inside, rank 3 dropped or not. -/
def manager (f : Mgr → Mgr) : State := node 0 2 [(RES_SILENT_LIMIT, 0)] fun e => { e with
  mgr := f { e.mgr with started := true, step := 1, attempt := 0, exp := 16, clean := 1999, armed := true } }

def report (kind r : Nat) (more : List Byte) : Pkt :=
  byRank kind 0 r 0 0 (leBytes 4 1 ++ leBytes 2 0 ++ leBytes 2 r ++ more)

theorem wit_rankDone : Arrives (manager id).d 31 { report pkRankDone 3 [] with kind := pkRankDone } 0 ∧
    (manager id).d.reportCounts (report pkRankDone 3 []).data = true ∧ leAt (report pkRankDone 3 []).data 6 2 = 3 ∧
    (manager id).d.eng.mgr.ranksDone = [] := by
  refine ⟨arrives_of (by decide +kernel), by decide +kernel⟩

def lastReport : State := manager fun m => { m with ownersDone := [(0, 0), (1, 0), (2, 0)], drop := [] }

theorem wit_ownerDone_last : Arrives lastReport.d 31 { report pkOwnerDone 3 [0] with kind := pkOwnerDone } 0 ∧
    lastReport.d.reportCounts (report pkOwnerDone 3 [0]).data = true ∧ lastReport.d.rankPart = some 0 ∧
    leAt (report pkOwnerDone 3 [0]).data 8 1 % 8 = 0 ∧ lastReport.d.lsMode 0 ≠ 1 ∧
    (∀ r ∈ lastReport.d.outside, r = leAt (report pkOwnerDone 3 [0]).data 6 2 ∨ ∃ x ∈ lastReport.d.eng.mgr.ownersDone, x.1 = r) ∧
    (∀ x ∈ lastReport.d.eng.mgr.ownersDone, bit x.2 0 = false) ∧ lastReport.d.nextDrops.length ≤ 224 ∧
    lastReport.d.pairIn lastReport.d.nextDrops = none := by
  refine ⟨arrives_of (by decide +kernel), by decide +kernel⟩

theorem wit_deadline : (manager id).d.mgrRuns = true ∧ (manager id).d.eng.mgr.armed = true ∧
    (manager id).d.fld RES_SILENT_LIMIT = 0 ∧ (manager id).d.nextDrops.length ≤ 224 ∧
    (manager id).d.pairIn (manager id).d.nextDrops = none := by decide +kernel

def gathered : State := node 0 2 [(TRN_LS_EXP 0, 16)] fun e => { e with
  mgr := { e.mgr with joined := [(0, 0), (1, 0), (2, 0), (3, 0)], aligned := [2] } }

theorem wit_init : gathered.d.rankPart = some 0 ∧ gathered.d.initReady = true ∧ gathered.d.nextDrops.length ≤ 224 ∧
    gathered.d.pairIn gathered.d.nextDrops = none := by decide +kernel

def joining (job r : Nat) (check : Nat) : Pkt := byRank pkJoin 0 3 0 0 (leBytes 8 job ++ leBytes 2 r ++ leBytes 2 1 ++ leBytes 4 0 ++ leBytes 8 check)

theorem wit_join : let d := gathered.d
    Arrives d 31 { joining 78 3 0 with kind := pkJoin } 0 ∧ d.jobManagerRank = some d.ownRank ∧ d.isJobMgr = true ∧
    leAt (joining 78 3 0).data 0 8 ≠ d.jobId ∧ d.eng.mgr.started = false ∧ 3 < d.rankCount ∧ 3 ∉ d.eng.mgr.drop ∧
    leAt (joining 77 3 (d.jobCheck % 2 ^ 64)).data 0 8 = d.jobId := by
  refine ⟨arrives_of (by decide +kernel), by decide +kernel⟩

/-- A JOIN that carries the manager's own JOB_CHECK. -/
theorem wit_join_check : ∃ k : Pkt, leAt k.data 0 8 = gathered.d.jobId ∧ leAt k.data 8 2 = 3 ∧
    leAt k.data 16 8 = gathered.d.jobCheck := by
  obtain ⟨b, hb⟩ : ∃ b, gathered.d.jobCheck = leAt b 0 8 := ⟨_, rfl⟩
  have h : ∀ (a : List Byte) i n, i + n ≤ a.length → leAt (a ++ b.take 8) i n = leAt a i n := by
    intro a i n e
    simp only [leAt, List.drop_append_of_le_length (show i ≤ a.length by omega)]
    rw [List.take_append_of_le_length (by simp; omega)]
  refine ⟨{ joining 77 3 0 with data := (joining 77 3 0).data.take 16 ++ b.take 8 }, ?_, ?_, ?_⟩
  · exact (h _ 0 8 (by decide +kernel)).trans (by decide +kernel)
  · exact (h _ 8 2 (by decide +kernel)).trans (by decide +kernel)
  · show leAt ((joining 77 3 0).data.take 16 ++ b.take 8) 16 8 = _
    rw [hb, leAt, leAt, List.drop_left' (by decide +kernel), List.take_take, List.drop_zero]
    rfl

/-- A fault record about rank 3: of kind UNREACHABLE, and one of severity RANK. -/
def recordOf (kind about : Nat) : Pkt := byRank pkFaultRecord 0 2 0 0 ([1, 5] ++ leBytes 2 kind ++ leBytes 2 3 ++
  List.replicate 26 0 ++ leBytes 2 about ++ List.replicate 30 0)

theorem wit_mgrRecord : let d := gathered.d
    Arrives d 31 { recordOf fkUnreachable 3 with kind := pkFaultRecord } 0 ∧ d.isJobMgr = true ∧ d.filling = false ∧
    leAt (fit 64 (recordOf fkUnreachable 3).data) 32 2 = 3 ∧ d.eng.mgr.unreach = [] ∧
    leAt (fit 64 (recordOf fkSpine 3).data) 2 2 ∉ [fkUnreachable, fkFillDone, fkFillAborted] ∧
    sevRank ≤ leAt (fit 64 (recordOf fkSpine 3).data) 1 1 ∧ d.recordCounts 2 3 0 = true ∧
    leAt (fit 64 (recordOf fkSpine 3).data) 4 2 = 3 ∧ d.eng.mgr.failed = [] ∧ d.eng.mgr.drop = [] ∧ d.eng.mgr.started = false := by
  refine ⟨arrives_of (by decide +kernel), by decide +kernel⟩

/-- DECISION of attempt (1, 0), and of another attempt, at rank 1. -/
def decision (step : Nat) : Pkt := byRank pkDecision 1 0 0 0 (leBytes 4 step ++ leBytes 2 0 ++ [BitVec.ofNat 8 decCommit, 17] ++
  leBytes 4 2 ++ leBytes 2 0 ++ leBytes 2 1 ++ leBytes 4 9 ++ leBytes 4 0 ++ leBytes 4 0 ++ leBytes 4 0 ++ leBytes 2 3)

theorem wit_decision : let d := (owner fun e => { e with red := { e.red with init := false, spare := false } }).d
    d.rankPart = some 0 ∧ d.installs 0 (decision 1).data = true ∧ d.installs 0 (decision 2).data = false ∧
    dcDrops (decision 1).data = [3] ∧
    (leAt (leBytes 4 1 ++ leBytes 2 (0 : Nat)) 0 4, leAt (leBytes 4 1 ++ leBytes 2 (0 : Nat)) 4 2) = d.tag 0 := by decide +kernel

/-! ### Ports -/

/-- Port 31 in a state, with packets held and waiting. -/
def heldPkt (seq : Nat) : HeldPkt := { seq := seq, flits := 3, sends := 1, pkt := byRank pkWrite 0 1 0 0 [] }
def port31 (state : Nat) (held : List HeldPkt) : State := node 1 0 [(FAB_PORT_STATUS_STATE 31, state)] fun e => { e with fab := { e.fab with
  ports := Store.put (fun _ => Port.fresh) 31 { Port.fresh with held := held, seqTx := 8 } e.fab.ports } }

theorem wit_portUp : (port31 2 [heldPkt 4, heldPkt 7]).d.portUp 31 = true ∧
    ((port31 2 [heldPkt 4, heldPkt 7]).d.port 31).held = [heldPkt 4, heldPkt 7] ∧
    65536 % 65536 = ((port31 2 []).d.port 31).seqRx ∧ seqLe 4 ((4 + 65535) % 65536) = false ∧ seqLe (4 % 65536) 7 = true := by
  decide +kernel

theorem wit_portTrains : (port31 0 []).d.portFenced 31 = false ∧ 6 ≤ (port31 0 []).d.fld PWR_BOOT_STATUS_PHASE ∧
    (∀ n ∈ [0, 1, 3], (port31 n []).d.fld (FAB_PORT_STATUS_STATE 31) = n) := by decide +kernel

theorem wit_portReset : (port31 2 []).d.portFenced 31 = false ∧ bit ((port31 2 []).d.fld PWR_PORT_BUSY_PORTS) 31 = false ∧
    bit ((node 1 0 [(PWR_PORT_BUSY_PORTS, 2 ^ 31)] id).d.fld PWR_PORT_BUSY_PORTS) 31 = true := by decide +kernel

theorem wit_laser : bit ((node 1 0 [(FAB_LASER_PRESENT, 15)] id).d.fld FAB_LASER_PRESENT) 3 = true := by decide +kernel

/-! ### Packets that bring, ask or tell -/

theorem wit_write : let d := (node 1 0 [] id).d
    let k := byRank pkWrite 1 0 4090 0 [1, 2, 3, 4, 5, 6, 7, 8, 9]
    Arrives d 31 { k with kind := pkWrite } 0 ∧ (k.data.length ≤ 4096 ∧ d.inMemory 0 k.addr k.data.length = true) ∧
    FreeLines d 0 k.addr k.data.length := ⟨arrives_of (by decide +kernel), by decide +kernel, free_of (by decide +kernel)⟩

theorem wit_accumulate (a : Nat) (h : a ∈ [0, 1]) : let d := (node 1 0 [] id).d
    let k := byRank pkAccumulate 1 0 4088 a (List.replicate 16 255)
    let w := if bit k.arg 0 then 8 else 4
    k.poison = false ∧ k.addr % w = 0 ∧ k.data.length % w = 0 ∧ d.inMemory 0 k.addr k.data.length = true ∧
    d.poisoned 0 none k.addr k.data.length = false := by
  revert a
  decide +kernel

theorem wit_accumulate_free : FreeLines (node 1 0 [] id).d 0 4088 16 := free_of (by decide +kernel)

/-- MIRROR or FILL_DATA of the first and the last line of granule 3, the last one fresh. -/
def masked (kind : Nat) : Pkt := byRank kind 1 0 12288 0 (leBytes 8 (2 ^ 63 + 1) ++ leBytes 8 0 ++ List.replicate 128 7)

theorem wit_mirror : let s := node 1 0 [] fun e => { e with dune := { e.dune with fresh := [(3, 2 ^ 63)] } }
    (maskFits (masked pkMirror) = true ∧ s.d.inMemory 0 12288 4096 = true ∧
    Store.get zeroNat (12288 / 4096) s.d.eng.dune.fresh = 2 ^ 63) ∧ FreeLines s.d 0 12288 4096 :=
  ⟨by decide +kernel, free_of (by decide +kernel)⟩

/-- Requests of this device that are answered. -/
def asking (gather : Bool) : State := node 1 0 [] fun e => { e with
  fab := { e.fab with reqs := [⟨9, byRank pkReadReq 0 1 0 5 [], none, 0, 2, 0, 8192, gather⟩] }
  nextTask := 3, quires := [(0, { Quire.idle with gathers := [⟨2, 1, 0, 0, 31, 4, 1, 2, 8192, 0, true⟩] })] }

theorem wit_readData : let k := byRank pkReadData 1 0 0 1 (leBytes 8 9 ++ [1, 2, 3, 4, 5])
    (((asking false).d.eng.fab.reqs.find? fun r => r.tag == leAt k.data 0 8 && !r.gather && r.pkt.dest == k.src).isSome = true ∧
    (asking false).d.taskView 2 = none) ∧ FreeLines (asking false).d 0 8192 5 := ⟨by decide +kernel, free_of (by decide +kernel)⟩

theorem wit_gatherData : let k := byRank pkGatherData 1 0 0 1 (leBytes 8 9 ++ List.replicate 4096 1)
    (((asking true).d.eng.fab.reqs.find? fun r => r.tag == leAt k.data 0 8 && r.gather && r.pkt.dest == k.src).isSome = true ∧
    (∃ kv ∈ (asking true).d.eng.quires, ∃ g ∈ kv.2.gathers, g.id = 2) ∧ k.data.length = 4104 ∧
    (asking true).d.taskView 2 = none) ∧ FreeLines (asking true).d 0 8192 4096 :=
  ⟨by decide +kernel, free_of (by decide +kernel)⟩

theorem wit_readReq : let d := (node 1 0 [] id).d
    d.inMemory 0 4095 4096 = true ∧ d.hostBusy 0 4095 4096 = [] ∧ d.eng.pwr.stopping = false := by decide +kernel

theorem wit_gatherReq : let d := (owner id).d
    d.servedAt 0 5 = some 4096 ∧ d.servedAt 0 2 = none ∧ d.hostBusy 0 4096 4096 = [] := by decide +kernel

theorem wit_remote : (node 1 0 [] id).d.relTally 0 255 = some 255 ∧ 255 < queueCount (node 1 0 [] id).d.eng.cfg.base 0 := by
  decide +kernel

def remoteRing : State := ⟨[], (Act.set (FAB_PORT_STATUS_STATE 31) 2).run (asRank 1 0 (work 3072 [])).d⟩

theorem wit_remoteDoorbell : let d := remoteRing.d
    let q := firstQueue d.eng.cfg.base 0 + 3072
    d.formed 0 = true ∧ 3072 < queueCount d.eng.cfg.base 0 ∧ q = 3072 ∧ d.queuePart q = some 0 ∧ d.pageOpen 0 = true ∧
    d.queueKind q ∈ [1, 3, 4] ∧ d.ringEnabled q = true ∧ 15 < d.ringSize q ∧ d.ringSize q ≤ 65536 ∧
    (15 + d.ringSize q - d.fld (QUE_TAIL_TAIL q)) % d.ringSize q + d.ringPending q + 1 ≤ d.ringSize q := by decide +kernel

/-- A windowed packet in flight to rank 0. -/
def inFlight : State := node 1 0 [] fun e => { e with fab := { e.fab with
  e2e := [⟨byRank pkWrite 0 1 0 0 [1], none, 0, 0⟩] } }

theorem wit_e2eAck : let k := byRank pkAck 1 0 0 7 []
    Arrives inFlight.d 31 { k with kind := pkAck } 0 ∧
    (inFlight.d.eng.fab.e2e.find? fun x => x.pkt.bySlot == k.bySlot && x.pkt.dest == k.src && x.pkt.seq == k.arg &&
      x.pkt.incarnation == k.addr % 65536) = some ⟨byRank pkWrite 0 1 0 0 [1], none, 0, 0⟩ ∧
    bit k.addr 16 = false ∧ inFlight.d.eng.fab.blocked = [] := by
  refine ⟨arrives_of (by decide +kernel), by decide +kernel⟩

/-! ### The time base -/

/-- Port 31 leads to rank 0 or 1. -/
def near (own tier peer : Nat) (f : Eng → Eng) : State :=
  node own tier [(FAB_PORT_STATUS_PEER_RANK 31, peer), (FAB_PORT_STATUS_PEER_JOINED 31, 1)] f

theorem wit_period : (near 0 2 1 id).d.alignees = [1, 2] ∧ ((near 0 2 1 id).d.nearPort 1).isSome = true := by decide +kernel

theorem wit_ping : ((near 1 0 0 id).d.nearPort 0).isSome = true ∧ (near 1 0 0 id).d.alignerOf (near 1 0 0 id).d.ownRank = some 0 := by
  decide +kernel

def exchanging (n : Nat) : State := near 0 2 1 fun e => { e with align := { e.align with
  exchanges := (List.range n).map fun i => ⟨1, i, 100, 10⟩ } }

theorem wit_pong (n : Nat) (h : n ∈ [0, 7]) : (byRank pkPong 0 1 n 0 []).src ∈ (exchanging n).d.alignees ∧ n < 8 ∧
    (∀ y ∈ (exchanging n).d.eng.align.exchanges, ¬ (y.peer = 1 ∧ y.num = n)) ∧
    ((exchanging n).d.eng.align.exchanges.filter fun y => y.peer == 1).length = n := by
  revert n
  decide +kernel

theorem wit_offset : (near 1 0 0 id).d.isJobMgr = false ∧ (near 1 0 0 id).d.flag FAB_STATUS_ALIGNED = false ∧
    (near 1 0 0 id).d.hasRanks = true ∧ (near 1 0 0 id).d.rankPart = some 0 := by decide +kernel

/-! ### Faulty units, dunes, fills, snapshots -/

theorem wit_units : linked.d.alive = true ∧ linked.d.quireFenced 1535 = false ∧ linked.d.arrayFenced 1535 3 = false ∧
    (∀ j < 4, linked.d.fenced (unitArray 1535 j) = false) ∧ (linked.d.quire 1535).gaths = [] ∧
    linked.d.chanFenced (31 * 16 + 15) = false ∧ linked.d.portFenced 31 = false ∧ linked.d.eng.axl.home = [] ∧
    linked.d.eng.memWaits = [] ∧ linked.d.eng.dune.frozen = [] ∧ linked.d.eng.tasks = [] ∧ linked.d.eng.fab.e2e = [] ∧
    linked.d.eng.fab.reqs = [] ∧ (node 1 0 [] id).d.portUp 31 = true := by decide +kernel

theorem wit_dune : 85 * 16 < signed 16 0x551 ∧ signed 16 0xFFFF < 83 * 16 := by decide

/-- Rank 1 whose partner is dropped or not, a mirror window open or not, a fill running or not. -/
def filler (drop : List Nat) (en state : Nat) : State := node 1 0 [(RES_MIRROR_LOCAL_EN 3, en), (RES_MIRROR_PAGES_PAGES 3, 1),
  (RES_FILL_STATUS_STATE, state)] fun e => { e with red := { e.red with drop := drop } }

theorem wit_fill : (filler [0] 1 0).d.rankPart = some 0 ∧ (filler [0] 1 0).d.partner = 0 ∧
    (filler [0] 1 0).d.eng.red.drop = [0] ∧ (filler [] 1 0).d.eng.red.drop = [] ∧
    (filler [0] 1 0).d.flag (RES_MIRROR_LOCAL_EN 3) = true ∧ (filler [0] 0 0).d.flag (RES_MIRROR_LOCAL_EN 3) = false ∧
    (filler [0] 1 0).d.filling = false ∧ (filler [0] 1 1).d.filling = true ∧
    (ascending (filler [0] 1 0).d.remoteGranules).length + (ascending (filler [0] 1 0).d.localGranules).length < 2 ^ 32 := by
  decide +kernel

theorem wit_fillDone : (filler [0] 1 1).d.eng.resil.bulk = [] ∧ (filler [0] 1 1).d.eng.fab.e2e = [] ∧
    (filler [0] 1 1).d.eng.fab.blocked = [] ∧ (filler [0] 1 1).d.eng.dune.mirrors = [] ∧
    ((node 1 0 [] fun e => { e with dune := { e.dune with mirrors := [⟨3, 0, 0, 1, [], 0, []⟩] } }).d.eng.dune.mirrors.any
      fun m => m.dest == 0) = true := by decide +kernel

/-- Rank 1 with a mirror window of two granules from 5, or none; its snapshot engine in a state, with drives. -/
def snapping (state drives pages : Nat) (f : Eng → Eng) : State := node 1 0 [(RES_SNAP_STATUS_STATE, state), (RES_SNAP_CFG_ENABLE, 1),
  (RES_SNAP_CFG_DRIVES, drives), (RES_SNAP_LBAS_LBA, 6), (RES_MIRROR_LOCAL_EN 0, 1), (RES_MIRROR_LOCAL_LOCAL 0, 5),
  (RES_MIRROR_PAGES_PAGES 0, pages)] f

/-- The same with a TRAINING record in force. -/
def training (s : State) : State := ⟨[], (Act.eng fun e => { e with cfg := { e.cfg with
  base := e.cfg.base ++ [{ ty := rtTraining, flags := 0, key := 0, body := leBytes 8 1 }] } }).run s.d⟩

theorem wit_snapshot : (∀ n ∈ [0, 1, 2, 3], (snapping n 1 2 id).d.fld RES_SNAP_STATUS_STATE = n) ∧
    (snapping 0 1 2 id).d.flag RES_SNAP_CFG_ENABLE = true ∧ (snapping 0 1 2 id).d.rankPart = some 0 ∧
    (snapping 0 1 2 id).d.imageGranules = 2 ∧ (snapping 0 1 2 id).d.trainingActive 0 = false ∧
    (training (snapping 0 1 2 id)).d.trainingActive 0 = true ∧ (snapping 0 0 2 id).d.fld RES_SNAP_CFG_DRIVES = 0 ∧
    (snapping 0 1 2 id).d.quiesced 0 = false ∧ (snapping 0 1 2 id).d.eng.pwr.stopping = false ∧
    (⟨[], (Act.set (PART_CTRL_STOP 0) 1).run (snapping 0 1 2 id).d⟩ : State).d.quiesced 0 = true := by decide +kernel

theorem wit_snapshotDone : let s := snapping 2 1 2 fun e => { e with dune := { e.dune with frozen := [⟨0, 9, 0, 0, 0, 0, []⟩] } }
    (s.d.frozenOf 0).isSome = true ∧ s.d.fld RES_SNAP_STATUS_STATE = 2 ∧ s.d.eng.pwr.stopping = false := by decide +kernel

/-- A snapshot header of job 77, rank 1, step 9 and two granules, complete or not. -/
def header (mark n : Nat) : List Byte := leBytes 8 mark ++ leBytes 8 77 ++ leBytes 2 1 ++ leBytes 2 0 ++ leBytes 4 9 ++ leBytes 8 0 ++
  leBytes 8 n ++ List.replicate 64 0

theorem wit_restore : snapSelect (header 0 2) [] = none ∧ snapSelect [] (header 0x150414E53 2) = some (1, header 0x150414E53 2) ∧
    snapSelect (header 0x150414E53 3) (header 0x150414E53 2) = some (0, header 0x150414E53 3) ∧
    (snapping 3 1 2 id).d.localGranules = [5, 6] ∧ leAt (header 0 2) 8 8 = (snapping 3 1 2 id).d.jobId ∧
    leAt (header 0 2) 16 2 = (snapping 3 1 2 id).d.ownRank ∧ leAt (header 0 2) 32 8 = 2 ∧
    ∀ g ∈ [5, 6], (snapping 3 1 2 id).d.inMemory 0 (g * 4096) 4096 = true := by decide +kernel

theorem wit_restore_free (g : Nat) (h : g ∈ [5, 6]) : FreeLines (snapping 3 1 2 id).d 0 (g * 4096) 4096 := by
  refine free_of ?_
  revert g
  decide +kernel

/-! ### Security and monitoring -/

def secured (f : Sec → Sec) (locked identity : Nat) : State := setup [(PWR_BOOT_STATUS_PHASE, 7), (SEC_STATUS_SIGNERS_LOCKED, locked),
  (SEC_STATUS_IDENTITY, identity)] fun e => { e with sec := f e.sec }

theorem wit_security : (secured id 0 0).d.eng.sec.loading = false ∧ (secured id 0 0).d.axlUp = false ∧
    linked.d.axlUp = true ∧ linked.d.eng.sec.loading = false ∧ (secured (fun x => { x with loading := true }) 0 0).d.eng.sec.loading = true ∧
    (List.replicate 256 (0 : Byte)).length = 256 ∧ (secured id 1 0).d.flag SEC_STATUS_SIGNERS_LOCKED = true ∧
    (secured id 0 1).d.flag SEC_STATUS_SIGNERS_LOCKED = false ∧ (secured id 0 1).d.flag SEC_STATUS_IDENTITY = true ∧
    (secured id 0 1).d.eng.sec.quote = none ∧
    (secured (fun x => { x with quote := some (1, [], 255) }) 0 1).d.eng.sec.quote = some (1, [], 255) := by decide +kernel

/-- A partition 0 of one signature whose quire 0 alone is active, and PC sampling on, the ring of 4,096 entries empty or full. -/
def sampling (en full : Nat) : State :=
  let s := running id id fun e => { e with cfg := { e.cfg with
    base := { ty := rtPartition, flags := 0, key := 0, body := 1 :: List.replicate 15 0 ++ List.replicate 64 0xFF ++ List.replicate 8 0 } ::
      e.cfg.base.tail
    fences := (List.range 11).map fun i => unitQuire (i + 1) } }
  ⟨[], (Act.all [Act.set (MON_PC_CFG_EN 0) en, Act.set (MON_PC_TAIL_TAIL 0) full]).run s.d⟩

theorem wit_pcSample : (∀ m, m < 1536 → (((sampling 1 0).d.quirePart m = some 0 ∧ (sampling 1 0).d.quireActive m = true) ↔ m = 0)) ∧
    (sampling 1 0).d.flag (MON_PC_CFG_EN 0) = true ∧ (sampling 0 0).d.flag (MON_PC_CFG_EN 0) = false ∧
    ((sampling 1 0).d.quire 0).nextSample (Store.get zeroNat 0 (sampling 1 0).d.eng.mon.sampled) = some caravan0 ∧
    (sampling 1 0).d.fld (MON_PC_CFG_LOG2_ENTRIES 0) = 12 ∧ (sampling 1 0).d.inMemory 0 0 32 = true := by decide +kernel

theorem wit_pcSample_free : FreeLines (sampling 1 0).d 0 0 32 := free_of (by decide +kernel)

theorem wit_pcSample_full : (sampling 1 4096).d.fld (MON_PC_TAIL_TAIL 0) = 4096 ∧ (sampling 1 4096).d.fld (MON_PC_HEAD_HEAD 0) = 0 := by decide +kernel

/-- Event recording on; hang requests waiting. -/
def watched (wait : List Nat) : State := ⟨[], (Act.all [Act.set (MON_HANG_LEN_BYTES) 64, Act.set (MON_PHANG_LEN_BYTES 0) 64,
  .eng fun e => { e with mon := { e.mon with fault := true, hang := wait } }]).run linked.d⟩

theorem wit_hang : (watched []).d.eng.mon.hang = [] ∧ (watched [0, 1]).d.eng.mon.hang = [0, 1] ∧ (watched [1]).d.eng.mon.hang = [1] ∧
    (watched []).d.recording = true ∧ linked.d.recording = false ∧ (watched []).d.hangFits 0 = true ∧ (watched []).d.hangFits 1 = true ∧
    linked.d.hangFits 0 = false := by decide +kernel

theorem hangRec_length (r : HangRec) (d : Dev) : (r.bytes d).length = 32 := by
  simp [HangRec.bytes, fit, leBytes_length]

/-- Two records at most stand in a buffer of 64 bytes. -/
theorem hangCut_length (l : List HangRec) (d : Dev) : ((hangCut l 2).1.map fun r => r.bytes d).flatten.length ≤ 64 := by
  have h : (hangCut l 2).1.length ≤ 2 := by
    unfold hangCut
    split
    · assumption
    · simp only [List.length_append, List.length_take, List.length_singleton]
      omega
  generalize (hangCut l 2).1 = m at h
  match m, h with
  | [], _ => simp
  | [a], _ => simp [hangRec_length]
  | [a, b], _ => simp [hangRec_length]

theorem wit_hangDone : (watched [1]).d.fld (MON_PHANG_LEN_BYTES 0) / 32 = 2 ∧
    ∀ n < 65, (watched [1]).d.inMemory 0 ((watched [1]).d.fld (MON_PHANG_BASE_BASE 0) * 64) n = true := by decide +kernel

theorem wit_hangDone_free (n : Nat) (h : n < 65) :
    FreeLines (watched [1]).d 0 ((watched [1]).d.fld (MON_PHANG_BASE_BASE 0) * 64) n := by
  refine free_of ?_
  revert n
  decide +kernel

/-! ### Well-formedness refuses what a field cannot hold -/

def selLast : Sel := ⟨1535, 63, 2 ^ 32 - 8⟩
def noLong : LongW := { guard := 0, dst := 0xFF, a := 0, b := 0, c := 0, mod := 0, cont := 0x1F, ext := 0, cmask := 0 }

theorem test_wf_accepts : ([.registerWrite 134217720 8 (2 ^ 64 - 1), .thermWarn 39 0xFFFF, .autoGateArray 1535 3,
    .rdUc 16383 (2 ^ 64 - 1) 64 .clean, .kernel 262143 (List.replicate 64 0), .mov selLast (regsW 511 511 511 511 1023),
    .acopy selLast { noLong with ext := 2 ^ 27 - 1 }, .write 31 (byRank pkWrite 65535 65535 (2 ^ 64 - 1) 0 []),
    .axlTrainingDone true 0xFFFF true 1 1 1 1 (2 ^ 64 - 2 ^ 27) (2 ^ 64 - 2 ^ 46)] : List Instr).all wellFormed = true := by
  decide +kernel

theorem test_wf_range : ([.registerWrite 134217728 8 0, .thermWarn 40 0, .autoGateArray 1536 0, .autoGateArray 0 4,
    .gatheringPlace 0 2, .partitionStop 64 0, .tallySet 16384 0, .doorbell 262144 0, .rdOwn 16384 0 .clean] : List Instr).any
    wellFormed = false := by decide +kernel

theorem test_wf_width : ([.registerWrite 0 2 0, .registerWrite 0 4 (2 ^ 32), .thermWarn 0 65536, .doorbell 0 65536,
    .rdOwn 0 (2 ^ 64) .clean] : List Instr).any wellFormed = false := by decide +kernel

theorem test_wf_length : ([.getQuote (List.replicate 31 0) 0, .kernel 0 (List.replicate 63 0), .wrLine 0 0 [] false,
    .axlFlit (List.replicate 247 0) [] 0 0 0 0 0 0 0, .wrPart 0 0 2 [1] false .clean, .rdUc 0 0 0 .clean, .rdUc 0 0 65 .clean] : List Instr).any wellFormed = false := by decide +kernel

theorem test_wf_list : ([.bist [2 ^ 32] [] [] [] 0, .bist [] [(6144, 0)] [] [] 0, .bist [] [(0, 8)] [] [] 0, .duneTrain [512] [],
    .duneTrain [] [32], .axlFlit (List.replicate 248 0) [0, 0, 0] 0 0 0 0 0 0 0, .axlFlit (List.replicate 248 0) [545] 0 0 0 0 0 0 0, .axlFlit (List.replicate 248 0) [] 4096 0 0 0 0 0 0, .axlFlit (List.replicate 248 0) [] 0 0 256 0 0 0 0, .axlTrainingDone true 1 true 0 0 0 0 1 0] : List Instr).any wellFormed = false := by decide +kernel

theorem test_wf_path : ([⟨1536, 0, 0⟩, ⟨0, 64, 0⟩, ⟨0, 0, 2 ^ 32⟩, ⟨0, 0, 4⟩] : List Sel).any
    (fun s => wellFormed (.nop s (regsW 0 0 0 0 0))) = false := by decide +kernel

theorem test_wf_word : ([{ regsW 0 0 0 0 0 with guard := 32 }, regsW 512 0 0 0 0, regsW 0 512 0 0 0, regsW 0 0 512 0 0,
    regsW 0 0 0 512 0, regsW 0 0 0 0 1024, immW 0 0 0 (2 ^ 18), { immW 0 0 0 1 with b := 1 }, { regsW 0 0 0 0 0 with imm := 1 }] :
    List BaseW).any (fun w => wellFormed (.mov selLast w)) = false := by decide +kernel

theorem test_wf_long : ([{ noLong with guard := 32 }, { noLong with dst := 512 }, { noLong with a := 512 }, { noLong with b := 512 },
    { noLong with c := 512 }, { noLong with mod := 2 ^ 11 }, { noLong with ext := 2 ^ 27 },
    { noLong with cont := 32 }] : List LongW).any
    (fun w => wellFormed (.acopy selLast w)) = false := by decide +kernel

theorem test_wf_packet : ([{ byRank 0 0 0 0 0 [] with dest := 65536 }, { byRank 0 0 0 0 0 [] with kind := 256 },
    { byRank 0 0 0 0 0 [] with tc := 4 }, { byRank 0 0 0 0 0 [] with vl := 2 }, { byRank 0 0 0 0 0 [] with hops := 16 },
    { byRank 0 0 0 0 0 [] with seq := 2 ^ 32 }, { byRank 0 0 0 0 0 [] with part := 256 },
    { byRank 0 0 0 0 0 [] with addr := 2 ^ 64 }] : List Pkt).any (fun k => wellFormed (.write 31 k)) = false := by decide +kernel

/-! ### One step each: values worked out from the spec's rules -/

/-- What a field reads after a command, where it completes. -/
def after {α : Type} (c : Instr) (s : State) (f : Dev → α) : Option α :=
  match exec c s with
  | .next t => some (f t.d)
  | _ => none

/-- A register of a lane after an instruction of one caravan whose g1 and g2 hold two words in every lane. -/
def alu (cls op : Nat) (c : Sel → BaseW → Instr) (w : BaseW) (a b : Word) (dst lane : Nat) : Option Word :=
  after (c ⟨0, 0, 0⟩ w) (coded cls op w (running (fun k => { k with
    g := setLanes zeroWord 64 lanes (fun _ => b) (setLanes zeroWord 32 lanes (fun _ => a) []) }) id id))
    fun d => ((d.caravan 0 0).getD caravan0).reg dst lane

/-- Words written out bit by bit from R256 and R257: IADD g1, g1, -1; ACOPY of all lanes with its descriptor at the address in
u1 and counter 31; the second word of the latter (R255 to R258). -/
theorem test_words : (⟨[], (Act.bytes 0 (leBytes 8 0x801FFFF804020040)).run plain.d⟩ : State).d.fetch kernelTask 0 =
      .base 0 2 (immW 1 1 0 0x3FFFF) ∧
    (⟨[], (Act.bytes 0 (leBytes 16 0xFFFFFFFF000003FF0000000405FE0015)).run plain.d⟩ : State).d.fetch kernelTask 0 =
      .long 10 0 { allLanes 31 with a := 0x101 } ∧
    (⟨[], (Act.bytes 0 (leBytes 16 0xFFFFFFFF000003FF0000000405FE0015)).run plain.d⟩ : State).d.fetch kernelTask 8 =
      .fault fkIllegal := by decide +kernel

/-- 1.0 + 2^-24 is a tie, which goes to even; just above it rounds up (R269, R378). -/
theorem test_fadd_ties : alu 1 0 .fadd (regsW 3 1 2 0 0) 0x3F800000 0x33800000 3 31 = some 0x3F800000 ∧
    alu 1 0 .fadd (regsW 3 1 2 0 0) 0x3F800000 0x33800001 3 0 = some 0x3F800001 := by decide +kernel

/-- The quiet NaN of FP32 is 0x7FC00000, and infinity less infinity gives it (R373, R376). -/
theorem test_fadd_nan : alu 1 0 .fadd (regsW 3 1 2 0 0) 0x7F800000 0xFF800000 3 5 = some 0x7FC00000 := by decide +kernel

/-- IMULH signed and unsigned: the high words of (-1) * 2 (R268). -/
theorem test_imulh : alu 0 5 .imulh (regsW 3 1 2 0 1) 0xFFFFFFFF 2 3 7 = some 0xFFFFFFFF ∧
    alu 0 5 .imulh (regsW 3 1 2 0 0) 0xFFFFFFFF 2 3 7 = some 1 := by decide +kernel

/-- An arithmetic shift by 33 is one by 1 (R268). -/
theorem test_shr : alu 0 11 .shr (regsW 3 1 2 0 1) 0x80000000 33 3 9 = some 0xC0000000 := by decide +kernel

/-- IADD whose destination is its source wraps (R268). -/
theorem test_iadd_wraps : alu 0 2 .iadd (regsW 1 1 2 0 0) 0xFFFFFFFF 2 1 31 = some 1 := by decide +kernel

/-- FP32 to E4M3: 448 is its largest value, code 0x7E; 1.5 is 0x3C (R371, R382). -/
theorem test_cvt_e4m3 : alu 2 0 .cvt (regsW 3 1 0 0 0x30) 0x43E00000 0 3 0 = some 0x7E ∧
    alu 2 0 .cvt (regsW 3 1 0 0 0x30) 0x3FC00000 0 3 0 = some 0x3C := by decide +kernel

/-- BF16 1.0 is 0x3F80 and 2.0 is 0x4000: packed sums (R269). -/
theorem test_fadd_packed : alu 1 0 .fadd (regsW 3 1 2 0 4) 0x3F804000 0x3F804000 3 0 = some 0x40004080 := by decide +kernel

/-- A branch of word offset -1 at address 0 wraps below the code (R253, R273). -/
theorem test_bra : after (.bra ⟨0, 0, 0⟩ (immW 0 0xFF 0 0x3FFFF)) (coded 3 0 (immW 0 0xFF 0 0x3FFFF) plain) (fun d => ((d.caravan 0 0).getD caravan0).pc 31) =
    some 0xFFFFFFF8 := by decide +kernel

/-- A MOD bit that NOP does not define, and a program counter beyond the code, end the task (R253, R259). -/
theorem test_illegal : after (.nop ⟨0, 0, 0⟩ (regsW 0 0 0 0 1)) (coded 3 3 (regsW 0 0 0 0 1) plain) (fun d => (d.task 1).map fun t => (t.ended, t.status, t.fkind)) =
    some (some (true, stFault, fkIllegal)) := by decide +kernel

theorem test_pcRange : after (.nop ⟨0, 0, 4096⟩ (regsW 0 0 0 0 0))
    (running (fun c => { c with pcs := (List.range 32).map fun l => (l, 4096) }) id id) (fun d => (d.task 1).map Task.fkind) =
    some (some fkPcRange) := by decide +kernel

/-- In the tcycle in which quire n has faulted with PC_RANGE, the ILLEGAL of quire 0 is the kind reported where n is above 0
(R288). -/
theorem test_sameTcycle :
    let s := coded 3 3 (regsW 0 0 0 0 1) plain
    [(1, fkIllegal), (0, fkPcRange)].all fun x => after (.nop ⟨0, 0, 0⟩ (regsW 0 0 0 0 1))
      ⟨[], (programFault 1 x.1 0 fkPcRange).run s.d⟩ (fun d => (d.task 1).map fun t => (t.ended, t.fkind)) ==
        some (some (true, x.2)) := by decide +kernel

/-- A W1C bit that is written 1 is cleared, one written 0 stands (R5). -/
theorem test_w1c : after (.registerWrite RES_STATUS 4 1) (setup [(PWR_BOOT_STATUS_PHASE, 7), (RES_STATUS_RECORD, 1),
    (RES_STATUS_MIRROR_SUSPENDED, 1)] id) (fun d => (d.flag RES_STATUS_RECORD, d.flag RES_STATUS_MIRROR_SUSPENDED)) =
    some (false, true) := by decide +kernel

/-- A TRN_LS write at a quiesce point sets 6 bits of EXP (R425). -/
theorem test_trnLs : after (.trnLsWrite 0 0xFFFFFFFF000000FF) (recordingAt 0 1) (fun d => (d.fld (TRN_LS_EXP 0), d.fld (TRN_LS_CLEAN 0))) =
    some (63, 0xFFFFFFFF) := by decide +kernel

/-- The window of duplicates: the newest SEQ and one 1,023 below it are known, one 1,024 below is old (R545, R546). -/
theorem test_window : let w : Window := ⟨0, false, 0, 0, 2000, 2 ^ 1023 + 1⟩
    w.isDup 2000 = true ∧ w.isDup 977 = true ∧ w.isDup 978 = false ∧ w.isDup 976 = true ∧ w.isDup 2001 = false := by decide +kernel

/-- Codes of the formats that the tables of R371 give: largest values and smallest subnormals. -/
theorem test_formats : fp16.decode 0x7BFF = .fin false 2047 5 ∧ bf16.round 0 0 (bf16.decode 0x7F7F) = 0x7F7F ∧
    e2m1.round 0 0 (e2m1.decode 7) = 7 ∧ e5m2.decode 1 = .fin false 1 (-16) := by decide +kernel

/-- No word spells a command (log 3). -/
theorem test_decode : decodeTableWord 32 0xFFFFFFFF = none ∧ (State.reset.withFetchWord 32 5).pending = [] := by decide

/-- An empty queue lets a tcycle pass: the stamp counter of a READY device goes up by one (PWR_STAMP, 03; log 2). -/
theorem test_tick : (match step live with
  | .next t => some (t.d.eng.stamp - live.d.eng.stamp, t.pending)
  | _ => none) = some (1, []) := by decide +kernel

end Sys2Proof.Tests
end

section
/-! Bad accesses and the gaps of the register window: the saturating counters, the answers that the Axoft Link carries,
and what a write and a read do at an offset that no register holds. -/

namespace Sys2Proof.Machine

/-! ### Saturating counters -/

@[simp] theorem Act.run_count_mem (f : Fld) (n : Nat) (d : Dev) : ((Act.count f n).run d).mem = d.mem := rfl
@[simp] theorem Act.run_count_eng (f : Fld) (n : Nat) (d : Dev) : ((Act.count f n).run d).eng = d.eng := rfl

/-- A counter goes up, and holds at its maximum. -/
theorem Act.run_count_same (f : Fld) (n : Nat) (d : Dev) (h : f.lo + f.wd ≤ 64) :
    ((Act.count f n).run d).fld f = min (d.fld f + n) (2 ^ f.wd - 1) := by
  rw [Act.count, Act.run_dyn, Act.run_set_same _ _ _ h]
  exact Nat.mod_eq_of_lt (by have := Nat.two_pow_pos f.wd; omega)

/-- Counting leaves every other register alone. -/
theorem Act.run_count_reg_other (f : Fld) (n o : Nat) (d : Dev) (h : f.reg ≠ o) :
    ((Act.count f n).run d).reg o = d.reg o := Act.run_set_reg_other _ _ _ _ h

/-! ### Messages given to the Axoft Link (R129, R131) -/

/-- A message is in a held flit or waits for credit: `Dev.hasSent` of the link alone. -/
def Axl.carries (a : Axl) (m : Msg) : Prop := m ∈ a.held.map HeldFlit.msg ∨ m ∈ a.wait

theorem hasSent_iff_carries (d : Dev) (m : Msg) : d.hasSent m ↔ d.eng.axl.carries m := Iff.rfl

/-- Spending a credit and returning others move no message. -/
theorem Axl.spend_returned_held (a : Axl) (cls : Nat) : (a.spend cls).returned.held = a.held := by
  unfold Axl.spend; split <;> rfl

theorem Axl.spend_returned_wait (a : Axl) (cls : Nat) : (a.spend cls).returned.wait = a.wait := by
  unfold Axl.spend; split <;> rfl

/-- Putting a message adds it, in a flit or to those that wait, and loses none. -/
theorem Axl.carries_putMsg (a : Axl) (m x : Msg) : (a.putMsg m).carries x ↔ a.carries x ∨ x = m := by
  unfold Axl.putMsg
  split
  · simp only [Axl.carries, Axl.spend_returned_held, Axl.spend_returned_wait, List.map_append, List.map_cons,
      List.map_nil, List.mem_append, List.mem_singleton]
    exact or_right_comm
  · simp only [Axl.carries, List.mem_append, List.mem_singleton, or_assoc]

/-- The same for a list of messages, put one after the other. -/
theorem Axl.carries_foldl_putMsg (l : List Msg) (a : Axl) (x : Msg) :
    (l.foldl Axl.putMsg a).carries x ↔ a.carries x ∨ x ∈ l := by
  induction l generalizing a with
  | nil => simp
  | cons m t ih => simp [ih, Axl.carries_putMsg, or_assoc]

/-- Sending what can be sent neither loses nor adds a message. -/
theorem Axl.carries_pump (a : Axl) (x : Msg) : a.pump.carries x ↔ a.carries x := by
  rw [Axl.pump, Axl.carries_foldl_putMsg]
  simp [Axl.carries]

/-- A message that is sent stands among those given to the link, whatever the credits. -/
theorem Axl.carries_send (a : Axl) (m x : Msg) : (a.send m).carries x ↔ a.carries x ∨ x = m := by
  rw [Axl.send, Axl.carries_pump]
  simp [Axl.carries, or_assoc]

/-- Sending touches neither memory nor registers. -/
@[simp] theorem run_axlSend_mem (m : Msg) (d : Dev) : ((axlSend m).run d).mem = d.mem := by
  simp only [axlSend, Act.run_dyn, Act.when]; split <;> rfl

@[simp] theorem run_axlSend_regs (m : Msg) (d : Dev) : ((axlSend m).run d).regs = d.regs := by
  simp only [axlSend, Act.run_dyn, Act.when]; split <;> rfl

@[simp] theorem run_answerHost_mem (m : Msg) (d : Dev) : ((answerHost m).run d).mem = d.mem := by simp [answerHost]

@[simp] theorem run_answerHost_regs (m : Msg) (d : Dev) : ((answerHost m).run d).regs = d.regs := by simp [answerHost]

/-- A message that is no request goes out even while the device stops (R83). -/
theorem hasSent_run_axlSend (m : Msg) (d : Dev) (h : opClass m.op ≠ 0) : ((axlSend m).run d).hasSent m := by
  simp [axlSend, h, Act.when, hasSent_iff_carries, Axl.carries_send]

/-- An answer to the host goes out. -/
theorem hasSent_run_answerHost (m : Msg) (d : Dev) (h : opClass m.op ≠ 0) : ((answerHost m).run d).hasSent m :=
  hasSent_run_axlSend m _ h

/-! ### Requests of the host to the register window (R147, R149) -/

/-- A good access has one of two widths (R25). -/
theorem width_of_accessOk {off width : Nat} (h : accessOk off width = true) : width = 4 ∨ width = 8 := by
  simp only [accessOk, Bool.and_eq_true, Bool.or_eq_true, beq_iff_eq] at h
  exact h.1

/-- A request to an address of AXL_REG_BAR goes to the register window. -/
theorem run_serveHost_reg (m : Msg) (ecc : Ecc) (d : Dev)
    (hin : d.fld AXL_REG_BAR_BASE ≤ m.addr ∧ m.addr < d.fld AXL_REG_BAR_BASE + 2 ^ 27) :
    (serveHost m ecc).run d = (serveReg m (m.addr - d.fld AXL_REG_BAR_BASE)).run d := by
  rw [serveHost, Act.run_dyn, if_pos hin]

/-- In the host's turn an unpoisoned request to the register window takes its credit and is carried out there. -/
theorem run_hostRequest_reg (m : Msg) (ecc : Ecc) (d : Dev) (hturn : d.hostTurn = true) (hpoison : m.poison = false)
    (hin : d.fld AXL_REG_BAR_BASE ≤ m.addr ∧ m.addr < d.fld AXL_REG_BAR_BASE + 2 ^ 27) :
    (hostRequest m ecc).run d =
      (serveReg m (m.addr - d.fld AXL_REG_BAR_BASE)).run ((updAxl fun a => a.took 0).run d) := by
  obtain ⟨⟨hup, hwrites⟩, hinq⟩ : (d.axlUp = true ∧ d.hostWriteWaits = false) ∧ d.eng.axl.inq = [] := by
    simpa [Dev.hostTurn] using hturn
  have hserve : (serveHost m ecc).run ((updAxl fun a => a.took 0).run d) =
      (serveReg m (m.addr - d.fld AXL_REG_BAR_BASE)).run ((updAxl fun a => a.took 0).run d) :=
    run_serveHost_reg m ecc _ hin
  simp only [hostRequest, Act.run_dyn, hup, hwrites, hinq, hpoison, hin.1, hin.2]
  simpa [poisonRx] using hserve

/-- A read of a good width and alignment is answered with what the window holds there, and nothing is counted. -/
theorem run_serveReg_read (m : Msg) (off : Nat) (d : Dev) (hop : m.op = opRdUc) (hok : accessOk off m.len = true) :
    (serveReg m off).run d = (answerHost { Msg.mk0 opData with
      tag := m.tag, addr := m.addr, len := m.len, data := leBytes m.len (d.readAt off m.len) }).run d := by
  have hform : (m.op == opRdUc || m.op == opWrPart) && (m.len == 4 || m.len == 8) := by
    simp [hop, width_of_accessOk hok]
  simp only [serveReg, Act.run_dyn, hform]
  simp [hop, hok]

/-! ### Accesses that reach no register (R9, R25, R28) -/

/-- A write of another width or alignment is discarded and counted. -/
theorem softWrite_of_not_accessOk {off width : Nat} (v : Nat) (h : accessOk off width = false) :
    softWrite off width v = Act.count CFG_BAD_ACCESS_COUNT 1 := by
  simp [softWrite, h]

/-- Four bytes written to a gap go nowhere. -/
theorem writeWord_gap {off : Nat} (h : Gap off) (v : Nat) : writeWord off v = .skip := by
  obtain ⟨hnone, hnarrow⟩ := h
  cases hbelow : regAt (off - 4) with
  | none => simp [writeWord, hnone, hbelow]
  | some r => simp [writeWord, hnone, hbelow, hnarrow r hbelow]

/-- Four bytes of a gap read as 0. -/
theorem readWord_gap {off : Nat} (h : Gap off) (d : Dev) : d.readWord off = 0 := by
  obtain ⟨hnone, hnarrow⟩ := h
  cases hbelow : regAt (off - 4) with
  | none => simp [Dev.readWord, hnone, hbelow]
  | some r => simp [Dev.readWord, hnone, hbelow, hnarrow r hbelow]

/-- A write whose bytes all lie in gaps changes nothing. -/
theorem run_softWrite_gap {off n : Nat} (hok : accessOk off n = true) (hlow : Gap off) (hhigh : n = 8 → Gap (off + 4))
    (v : Nat) (d : Dev) : (softWrite off n v).run d = d := by
  rcases width_of_accessOk hok with rfl | rfl
  · simp [softWrite, hok, writeWord_gap hlow]
  · simp [softWrite, hok, hlow.1, writeWord_gap hlow, writeWord_gap (hhigh rfl)]

/-- A read whose bytes all lie in gaps gives 0. -/
theorem readAt_gap {off n : Nat} (hlow : Gap off) (hhigh : n = 8 → Gap (off + 4)) (d : Dev) : d.readAt off n = 0 := by
  by_cases hn : n = 8
  · simp [Dev.readAt, hn, readWord_gap hlow, readWord_gap (hhigh hn)]
  · simp [Dev.readAt, hn, readWord_gap hlow]

/-- A bad write: the counter goes up by one until it holds, and the rest of the device stays. -/
theorem does_registerWrite_of_not_accessOk (off width v : Nat) (s : State) (halive : s.d.alive = true)
    (hbad : accessOk off width = false) :
    Does (.registerWrite off width v) s fun e =>
      e.fld CFG_BAD_ACCESS_COUNT = min (s.d.fld CFG_BAD_ACCESS_COUNT + 1) 0xFFFFFFFF ∧ e.mem = s.d.mem ∧
      e.eng = s.d.eng ∧ SameRegs s.d e (· = CFG_BAD_ACCESS) := by
  refine ⟨_, cmd_alive _ s halive, rfl, ?_⟩
  rw [softWrite_of_not_accessOk v hbad]
  exact ⟨Act.run_count_same _ _ _ (by decide), Act.run_count_mem _ _ _, Act.run_count_eng _ _ _,
    fun o ho => Act.run_count_reg_other _ _ _ _ (Ne.symm ho)⟩

/-- A write to a gap leaves the whole state as it is, also on a device that does not work. -/
theorem exec_registerWrite_gap {off n : Nat} (hok : accessOk off n = true) (hlow : Gap off)
    (hhigh : n = 8 → Gap (off + 4)) (v : Nat) (s : State) : exec (.registerWrite off n v) s = .next s := by
  change cmd (softWrite off n v) s = .next s
  cases halive : s.d.alive with
  | true => rw [cmd_alive _ s halive, run_softWrite_gap hok hlow hhigh]
  | false => exact cmd_dead _ s halive

/-- The host reads a gap: the answer holds zeros, and neither memory nor a register, the counter of bad accesses included,
changes. -/
theorem does_rdUc_gap {off n : Nat} (hok : accessOk off n = true) (hlow : Gap off) (hhigh : n = 8 → Gap (off + 4))
    (tag : Nat) (s : State) (halive : s.d.alive = true) (hturn : s.d.hostTurn = true)
    (haddr : s.d.fld AXL_REG_BAR_BASE + off < 2 ^ 64) (hoff : off < 2 ^ 27) :
    Does (.rdUc tag (s.d.fld AXL_REG_BAR_BASE + off) n .clean) s fun e => e.mem = s.d.mem ∧ e.regs = s.d.regs ∧
      e.hasSent { Msg.mk0 opData with
        tag := tag % 16384, addr := s.d.fld AXL_REG_BAR_BASE + off, len := n, data := leBytes n 0 } := by
  have hlen : n % 128 = n := by rcases width_of_accessOk hok with rfl | rfl <;> rfl
  have hmsg : hostMsg opRdUc tag (s.d.fld AXL_REG_BAR_BASE + off) n 0 false [] =
      { Msg.mk0 opRdUc with tag := tag % 16384, addr := s.d.fld AXL_REG_BAR_BASE + off, len := n } := by
    simp only [hostMsg, Msg.mk0, Nat.mod_eq_of_lt haddr, hlen, Nat.zero_mod]
  refine ⟨_, cmd_alive _ s halive, rfl, ?_⟩
  rw [hmsg, run_hostRequest_reg _ _ _ hturn rfl ⟨Nat.le_add_right _ _, Nat.add_lt_add_left hoff _⟩,
    Nat.add_sub_cancel_left, run_serveReg_read _ _ _ rfl hok, readAt_gap hlow hhigh]
  exact ⟨by simp [updAxl], by simp [updAxl], hasSent_run_answerHost _ _ (by decide : opClass opData ≠ 0)⟩

/-- Settles O6: a bad write is one count, and a gap is skipped word by word, by writes and by reads of the host. -/
theorem badAccessCountsAndGapsReadZero : Obligations.BadAccessCountsAndGapsReadZero := by
  unfold Obligations.BadAccessCountsAndGapsReadZero
  refine ⟨does_registerWrite_of_not_accessOk, fun off n s hok hlow hhigh =>
    ⟨fun v => exec_registerWrite_gap hok hlow hhigh v s, readAt_gap hlow hhigh s.d, ?_⟩⟩
  rintro tag _ halive hturn rfl haddr hoff
  exact does_rdUc_gap hok hlow hhigh tag s halive hturn haddr hoff

end Sys2Proof.Machine
end

section
/-! Reads of the register window: over the sideband (R29, R30) and by the host (R25 to R27), with what each leaves
alone. -/

namespace Sys2Proof.Machine

/-! ### Reads over the sideband -/

/-- An MCTP command on a device that is powered and out of reset is carried out. -/
theorem mctp_of_up (a : Act) (s : State) (hgood : s.d.eng.pwr.good = true) (hreset : s.d.eng.pwr.resetN = true) :
    mctp a s = .next { s with d := a.run s.d } := by
  simp [mctp, hgood, hreset]

/-- An answer over MCTP changes the response and nothing else. -/
@[simp] theorem run_answer (bs : List Byte) (d : Dev) : (answer bs).run d = d.answers bs := rfl

/-- READ_REG changes the response and nothing else, permitted or not. -/
theorem run_actReadReg (off width : Nat) (d : Dev) : (actReadReg off width).run d =
    d.answers (if readRegOk off width then mcSuccess :: leBytes width (d.readAt off width) else [mcRefused]) := by
  rw [actReadReg, Act.run_dyn]
  split <;> exact run_answer _ d

/-- READ_REG on a device that is powered and out of reset: the register, or REFUSED outside those of R29 (R30). -/
theorem exec_readReg (off width : Nat) (s : State) (hgood : s.d.eng.pwr.good = true)
    (hreset : s.d.eng.pwr.resetN = true) : exec (.readReg off width) s = .next { s with
      d := s.d.answers (if readRegOk off width then mcSuccess :: leBytes width (s.d.readAt off width)
        else [mcRefused]) } := by
  change mctp (actReadReg off width) s = _
  rw [mctp_of_up _ s hgood hreset, run_actReadReg]

/-! ### What the host's read sees and changes -/

/-- No register shows the credits that the companion processor holds, so a request that has taken its own reads what
stood before it. -/
theorem regRead_run_took (cls off : Nat) (d : Dev) :
    ((updAxl fun a => a.took cls).run d).regRead off = d.regRead off := rfl

theorem readAt_run_took (cls off n : Nat) (d : Dev) :
    ((updAxl fun a => a.took cls).run d).readAt off n = d.readAt off n := by
  simp only [Dev.readAt, Dev.readWord, regRead_run_took]

@[simp] theorem run_answerHost_reg (m : Msg) (d : Dev) (o : Nat) : ((answerHost m).run d).reg o = d.reg o := by
  simp [Dev.reg]

@[simp] theorem run_answerHost_fld (m : Msg) (d : Dev) (f : Fld) : ((answerHost m).run d).fld f = d.fld f := by
  simp [Dev.fld]

/-- A misaligned read of 4 or 8 bytes is counted and answered with zeros. -/
theorem run_serveReg_read_bad (m : Msg) (off : Nat) (d : Dev) (hop : m.op = opRdUc) (hlen : m.len = 4 ∨ m.len = 8)
    (hbad : accessOk off m.len = false) :
    (serveReg m off).run d = (answerHost { Msg.mk0 opData with
      tag := m.tag, addr := m.addr, len := m.len, data := leBytes m.len 0 }).run
        ((Act.count CFG_BAD_ACCESS_COUNT 1).run d) := by
  have hform : (m.op == opRdUc || m.op == opWrPart) && (m.len == 4 || m.len == 8) := by simp [hop, hlen]
  simp only [serveReg, Act.run_dyn, hform]
  simp [hop, hbad]

/-- The message of a host read of the register window. -/
def regReadMsg (tag addr n : Nat) : Msg := { Msg.mk0 opRdUc with tag := tag % 16384, addr := addr, len := n }

/-- The answer to a host read of the register window, with its data. -/
def regDataMsg (tag addr n v : Nat) : Msg :=
  { Msg.mk0 opData with tag := tag % 16384, addr := addr, len := n, data := leBytes n v }

/-- In the host's turn a RD_UC of 4 or 8 bytes in AXL_REG_BAR takes its credit and is served by the register window. -/
theorem exec_rdUc_reg {off n : Nat} (tag : Nat) (s : State) (halive : s.d.alive = true) (hturn : s.d.hostTurn = true)
    (hn : n = 4 ∨ n = 8) (haddr : s.d.fld AXL_REG_BAR_BASE + off < 2 ^ 64) (hoff : off < 2 ^ 27) :
    exec (.rdUc tag (s.d.fld AXL_REG_BAR_BASE + off) n .clean) s = .next { s with
      d := (serveReg (regReadMsg tag (s.d.fld AXL_REG_BAR_BASE + off) n) off).run
        ((updAxl fun a => a.took 0).run s.d) } := by
  have hlen : n % 128 = n := by rcases hn with rfl | rfl <;> rfl
  have hmsg : hostMsg opRdUc tag (s.d.fld AXL_REG_BAR_BASE + off) n 0 false [] =
      regReadMsg tag (s.d.fld AXL_REG_BAR_BASE + off) n := by
    simp only [hostMsg, regReadMsg, Msg.mk0, Nat.mod_eq_of_lt haddr, hlen, Nat.zero_mod]
  have hserve := run_hostRequest_reg (regReadMsg tag (s.d.fld AXL_REG_BAR_BASE + off) n) .clean s.d hturn rfl
    ⟨Nat.le_add_right _ _, Nat.add_lt_add_left hoff _⟩
  change cmd (hostRequest (hostMsg opRdUc tag _ n 0 false []) .clean) s = _
  rw [cmd_alive _ s halive, hmsg, hserve]
  simp only [regReadMsg, Nat.add_sub_cancel_left]

/-- A good read of the host is answered with the register; memory and every register stay. -/
theorem does_rdUc_reg {off n : Nat} (tag : Nat) (s : State) (halive : s.d.alive = true) (hturn : s.d.hostTurn = true)
    (hok : accessOk off n = true) (haddr : s.d.fld AXL_REG_BAR_BASE + off < 2 ^ 64) (hoff : off < 2 ^ 27) :
    Does (.rdUc tag (s.d.fld AXL_REG_BAR_BASE + off) n .clean) s fun e => e.mem = s.d.mem ∧
      e.hasSent (regDataMsg tag (s.d.fld AXL_REG_BAR_BASE + off) n (s.d.readAt off n)) ∧ e.regs = s.d.regs := by
  refine ⟨_, exec_rdUc_reg tag s halive hturn (width_of_accessOk hok) haddr hoff, rfl, ?_⟩
  rw [run_serveReg_read _ _ _ rfl hok, readAt_run_took]
  exact ⟨by simp [updAxl], hasSent_run_answerHost _ _ (by decide : opClass opData ≠ 0), by simp [updAxl]⟩

/-- A bad read of the host is answered with zeros and counted; memory and every other register stay. -/
theorem does_rdUc_reg_bad {off n : Nat} (tag : Nat) (s : State) (halive : s.d.alive = true)
    (hturn : s.d.hostTurn = true) (hn : n = 4 ∨ n = 8) (hbad : accessOk off n = false)
    (haddr : s.d.fld AXL_REG_BAR_BASE + off < 2 ^ 64) (hoff : off < 2 ^ 27) :
    Does (.rdUc tag (s.d.fld AXL_REG_BAR_BASE + off) n .clean) s fun e => e.mem = s.d.mem ∧
      e.hasSent (regDataMsg tag (s.d.fld AXL_REG_BAR_BASE + off) n 0) ∧ SameRegs s.d e (· = CFG_BAD_ACCESS) ∧
      e.fld CFG_BAD_ACCESS_COUNT = min (s.d.fld CFG_BAD_ACCESS_COUNT + 1) 0xFFFFFFFF := by
  refine ⟨_, exec_rdUc_reg tag s halive hturn hn haddr hoff, rfl, ?_⟩
  rw [run_serveReg_read_bad _ _ _ rfl hn hbad]
  refine ⟨by simp [updAxl], hasSent_run_answerHost _ _ (by decide : opClass opData ≠ 0), fun o ho => ?_, ?_⟩
  · rw [run_answerHost_reg]
    exact Act.run_count_reg_other _ _ _ _ (Ne.symm ho)
  · rw [run_answerHost_fld]
    exact Act.run_count_same _ _ _ (by decide)

/-- Settles O9: READ_REG only changes the response; a RD_UC answers what the window held before it, and its one change of
a register is the count of a bad access. -/
theorem readRegHasNoSideEffect : Obligations.ReadRegHasNoSideEffect := by
  unfold Obligations.ReadRegHasNoSideEffect
  refine ⟨exec_readReg, ?_⟩
  rintro tag _ off n s halive hturn hn rfl haddr hoff
  cases hacc : accessOk off n with
  | true => exact does_rdUc_reg tag s halive hturn hacc haddr hoff
  | false => exact does_rdUc_reg_bad tag s halive hturn hn hacc haddr hoff

end Sys2Proof.Machine
end

section
/-! Writes to the RWL fields of a sealed device (R5, R65): what the register table says of its RWL rows, the word that a
software write stores, and what the event rings change beside it. -/

namespace Sys2Proof.Machine

/-! ### The RWL rows of the register table (R4) -/

/-- The row that an offset names stands in the table, and the offset lies inside it. -/
theorem mem_regTable_of_regAt {off : Nat} {r : RegDef} (h : regAt off = some r) :
    r ∈ regTable ∧ r.base ≤ off ∧ instOf r.dims (off - r.base) = true := by
  have hin := List.find?_some h
  rw [Bool.and_eq_true, decide_eq_true_eq] at hin
  exact ⟨List.mem_of_find?_eq_some h, hin⟩

theorem regTable_stride_pos : ∀ r ∈ regTable, ∀ dim ∈ r.dims, 0 < dim.1 := by decide +kernel

/-- The bytes from a row's base over which its registers spread. -/
def rowSpan (r : RegDef) : Nat :=
  match r.dims with
  | [] => 1
  | (stride, count) :: _ => stride * count

/-- Every register of a row begins inside its span. -/
theorem lt_base_add_rowSpan {off : Nat} {r : RegDef} (h : regAt off = some r) : off < r.base + rowSpan r := by
  obtain ⟨hrow, hbase, hinst⟩ := mem_regTable_of_regAt h
  unfold rowSpan
  cases hdims : r.dims with
  | nil =>
    have : off - r.base = 0 := by simpa [hdims, instOf] using hinst
    simp only; omega
  | cons dim rest =>
    have hcount : (off - r.base) / dim.1 < dim.2 := by
      simp only [hdims, instOf, Bool.and_eq_true, decide_eq_true_eq] at hinst
      exact hinst.1
    have hstride : 0 < dim.1 := regTable_stride_pos r hrow dim (by simp [hdims])
    have : off - r.base < dim.1 * dim.2 := by rwa [Nat.div_lt_iff_lt_mul hstride, Nat.mul_comm] at hcount
    simp only; omega

/-- No bit has two access codes, where one of them is RWL. -/
theorem regTable_rwl_disjoint : ∀ r ∈ regTable, r.rwl &&& r.rw = 0 ∧ r.rwl &&& r.w1c = 0 := by decide +kernel

/-- A row with RWL bits lies apart from the event rings. -/
theorem regTable_rwl_apart_from_rings : ∀ r ∈ regTable, r.rwl ≠ 0 →
    r.base + rowSpan r ≤ MON_RING_COUNT 0 ∨ MON_RING 1605 0 ≤ r.base := by decide +kernel

/-- Whether the write of a register acts is told by its row alone. -/
theorem isNone_writeAction (base : Nat) (ix : List Nat) (lanes v : Nat) :
    (writeAction base ix lanes v).isNone = (writeAction base [] 0 0).isNone := by
  simp only [writeAction, apply_ite Option.isNone, Option.isNone_some, Option.isNone_none]

theorem regTable_rwl_no_action : ∀ r ∈ regTable, r.rwl ≠ 0 → (writeAction r.base [] 0 0).isNone = true := by
  decide +kernel

/-- A register with RWL bits only stores. -/
theorem writeAction_of_rwl {r : RegDef} (hrow : r ∈ regTable) (hrwl : r.rwl ≠ 0) (ix : List Nat) (lanes v : Nat) :
    writeAction r.base ix lanes v = none := by
  rw [← Option.isNone_iff_eq_none, isNone_writeAction]
  exact regTable_rwl_no_action r hrow hrwl

/-- A register with RWL bits belongs to no event ring. -/
theorem not_ringRegs_of_rwl {off : Nat} {r : RegDef} (h : regAt off = some r) (hrwl : r.rwl ≠ 0) :
    ¬ ringRegs off := by
  obtain ⟨hrow, hbase, -⟩ := mem_regTable_of_regAt h
  have hend := lt_base_add_rowSpan h
  have hapart := regTable_rwl_apart_from_rings r hrow hrwl
  simp only [ringRegs, offs, MON_RING_COUNT, MON_RING] at hapart ⊢
  omega

theorem regAt_sealStatus_rwl : (regAt CFG_SEAL_STATUS).map RegDef.rwl = some 0 := by decide +kernel

/-- CFG_SEAL_STATUS has no RWL bits. -/
theorem ne_sealStatus_of_rwl {off : Nat} {r : RegDef} (h : regAt off = some r) (hrwl : r.rwl ≠ 0) :
    off ≠ CFG_SEAL_STATUS := by
  rintro rfl
  have hzero := regAt_sealStatus_rwl
  rw [h, Option.map_some, Option.some_inj] at hzero
  exact hrwl hzero

theorem not_ringRegs_sealStatus : ¬ ringRegs CFG_SEAL_STATUS := by
  simp only [ringRegs, offs, MON_RING_COUNT, MON_RING, CFG_SEAL_STATUS]
  omega

/-! ### Bits of a stored word -/

/-- A bit of one mask is no bit of another that shares none with it. -/
theorem bit_eq_false_of_and_eq_zero {a b i : Nat} (h : a &&& b = 0) (ha : bit a i = true) : bit b i = false := by
  have hboth : (a &&& b).testBit i = false := by simp [h]
  rwa [Nat.testBit_and, show a.testBit i = true from ha, Bool.true_and] at hboth

/-- A merged word has the new bits under the mask and the old ones elsewhere. -/
theorem getLsbD_merge (old : DWord) (mask v i : Nat) :
    (merge old mask v).getLsbD i = if decide (i < 64) && bit mask i then bit v i else old.getLsbD i := by
  by_cases hi : i < 64
  · cases hm : mask.testBit i <;> simp [merge, bit, hi, hm, dword_bit]
  · simp [merge, hi, BitVec.getLsbD_of_ge _ i (Nat.le_of_not_lt hi)]

/-- A bit of a word with a field put into it is one of the field or one of the word. -/
theorem getLsbD_putField_field (w old : DWord) (lo wd i : Nat) :
    (putField w lo wd (field old.toNat lo wd)).getLsbD i = w.getLsbD i ∨
      (putField w lo wd (field old.toNat lo wd)).getLsbD i = old.getLsbD i := by
  simp only [BitVec.getLsbD, putField_testBit, field_testBit]
  by_cases hin : lo ≤ i ∧ i < lo + wd ∧ i < 64
  · have hwd : i - lo < wd := by omega
    simp [hin.1, hin.2.1, hin.2.2, hwd]
  · left
    rw [if_neg]
    simpa [and_assoc] using hin

/-- Turning values down changes no bit that would have stayed. -/
theorem getLsbD_turnDown {d : Dev} {base : Nat} {old new : DWord} {i : Nat} (h : new.getLsbD i = old.getLsbD i) :
    (turnDown d base old new).getLsbD i = old.getLsbD i := by
  unfold turnDown
  generalize (fieldRules d).filter (fun r => r.1 == base) = rules
  induction rules generalizing new with
  | nil => exact h
  | cons rule rules ih =>
    refine ih ?_
    dsimp only
    split
    · exact h
    · obtain hnew | hold := getLsbD_putField_field new old rule.2.1 rule.2.2.1 i
      · exact hnew.trans h
      · exact hold

/-- The word that a software write leaves in a register: RW bits written, RWL bits unless sealed, what is turned down put
back, and the written W1C bits cleared but for those raised in this tcycle. -/
def Dev.softStored (d : Dev) (r : RegDef) (off lanes v : Nat) : DWord :=
  turnDown d r.base (d.reg off)
    (merge (d.reg off) (lanes &&& (r.rw ||| if d.flag CFG_SEAL_STATUS_SEALED then 0 else r.rwl)) v) &&&
  ~~~(BitVec.ofNat 64 (lanes &&& r.w1c &&& v) &&& ~~~BitVec.ofNat 64 (d.raisedBits off))

/-- The RWL bits of a sealed device stay (R5). -/
theorem getLsbD_softStored_rwl {d : Dev} {r : RegDef} (off lanes v : Nat) {i : Nat} (hrow : r ∈ regTable)
    (hsealed : d.flag CFG_SEAL_STATUS_SEALED = true) (hi : bit r.rwl i = true) :
    (d.softStored r off lanes v).getLsbD i = (d.reg off).getLsbD i := by
  obtain ⟨hrw, hw1c⟩ := regTable_rwl_disjoint r hrow
  have hnotRw : r.rw.testBit i = false := bit_eq_false_of_and_eq_zero hrw hi
  have hnotW1c : r.w1c.testBit i = false := bit_eq_false_of_and_eq_zero hw1c hi
  have hkept : (turnDown d r.base (d.reg off) (merge (d.reg off) (lanes &&& (r.rw ||| 0)) v)).getLsbD i =
      (d.reg off).getLsbD i := getLsbD_turnDown (by simp [getLsbD_merge, bit, hnotRw])
  by_cases h64 : i < 64
  · rw [Dev.softStored, if_pos hsealed, BitVec.getLsbD_and, hkept]
    simp [hnotW1c, h64, dword_bit]
  · simp only [BitVec.getLsbD_of_ge _ i (Nat.le_of_not_lt h64)]

/-! ### What may record (R645) -/

/-- The words of the event rings lie among the registers of the rings. -/
theorem ringRegs_ringWord {u j : Nat} (hu : u ≤ ringMgr) (hj : j < 128) : ringRegs (MON_RING u j) := by
  simp only [ringRegs, offs, MON_RING, MON_RING_COUNT, ringMgr] at *
  omega

theorem ringRegs_ringCount {u : Nat} (hu : u ≤ ringMgr) : ringRegs (MON_RING_COUNT u) := by
  simp only [ringRegs, offs, MON_RING, MON_RING_COUNT, ringMgr] at *
  omega

/-- An entry of a ring changes the registers of the rings and nothing else. -/
@[simp] theorem run_putEntry_mem (u code arg : Nat) (d : Dev) : ((putEntry u code arg).run d).mem = d.mem := rfl
@[simp] theorem run_putEntry_eng (u code arg : Nat) (d : Dev) : ((putEntry u code arg).run d).eng = d.eng := rfl

theorem run_putEntry_reg {u o : Nat} (code arg : Nat) (d : Dev) (hu : u ≤ ringMgr) (ho : ¬ ringRegs o) :
    ((putEntry u code arg).run d).reg o = d.reg o := by
  have hcount : MON_RING_COUNT u ≠ o := fun h => ho (h ▸ ringRegs_ringCount hu)
  have hword (j : Nat) (hj : j < 128) : MON_RING u j ≠ o := fun h => ho (h ▸ ringRegs_ringWord hu hj)
  have hslot : d.fld (MON_RING_COUNT_WRITTEN u) % 64 < 64 := Nat.mod_lt _ (by decide)
  simp only [putEntry, Act.run_dyn, Act.run_all_cons, Act.run_all_nil, Act.add]
  rw [Act.run_set_reg_other _ _ _ _ hcount, Act.run_reg_other _ _ _ _ (hword _ (by omega)),
    Act.run_reg_other _ _ _ _ (hword _ (by omega))]

/-- What may record is the change itself, perhaps with an entry of the boot sequencer's ring after it. -/
theorem run_mayRecord (a : Act) (d : Dev) : (mayRecord a).run d = a.run d ∨
    ∃ code arg, (mayRecord a).run d = (putEntry ringBoot code arg).run (a.run d) := by
  simp only [mayRecord, Act.run_dyn]
  cases d.recording with
  | true => exact .inl rfl
  | false =>
    cases hafter : (a.run d).recording with
    | true => exact .inr ⟨0xE, (a.run d).causes, by simp [hafter]⟩
    | false => exact .inl (by simp [hafter])

theorem run_mayRecord_mem (a : Act) (d : Dev) : ((mayRecord a).run d).mem = (a.run d).mem := by
  obtain h | ⟨code, arg, h⟩ := run_mayRecord a d <;> rw [h]
  exact run_putEntry_mem ..

theorem run_mayRecord_eng (a : Act) (d : Dev) : ((mayRecord a).run d).eng = (a.run d).eng := by
  obtain h | ⟨code, arg, h⟩ := run_mayRecord a d <;> rw [h]
  exact run_putEntry_eng ..

theorem run_mayRecord_reg {o : Nat} (a : Act) (d : Dev) (ho : ¬ ringRegs o) :
    ((mayRecord a).run d).reg o = (a.run d).reg o := by
  obtain h | ⟨code, arg, h⟩ := run_mayRecord a d <;> rw [h]
  exact run_putEntry_reg _ _ _ (by decide) ho

/-! ### A software write that stores -/

/-- What a write of PWR_GATE_CTRL does beside storing: with AUTO_GATE clear the gated blocks come back. -/
def ungate (r : RegDef) : Act := Act.when (r.base == PWR_GATE_CTRL) (.dyn fun d =>
  Act.when (!d.flag PWR_GATE_CTRL_AUTO_GATE) (updPwr fun p => { p with gatedArrays := [], gatedVecs := [] }))

theorem run_ungate (r : RegDef) (d : Dev) :
    (ungate r).run d = { d with eng := { d.eng with pwr := ((ungate r).run d).eng.pwr } } := by
  cases hbase : r.base == PWR_GATE_CTRL with
  | false => simp [ungate, hbase]
  | true => cases hauto : d.flag PWR_GATE_CTRL_AUTO_GATE <;> simp [ungate, hbase, hauto, updPwr]

/-- A software write that stores: the count of R65, the word, and what PWR_GATE_CTRL does beside. -/
theorem run_storeReg_soft (r : RegDef) (off lanes v : Nat) (d : Dev) : (storeReg false r off lanes v).run d =
    (ungate r).run ((mayRecord (.reg off (d.softStored r off lanes v))).run
      ((Act.when (d.flag CFG_SEAL_STATUS_SEALED && lanes &&& r.rwl != 0)
        (Act.count CFG_SEAL_STATUS_IGNORED_WRITES 1)).run d)) := by
  simp [storeReg, Dev.softStored, ungate]

/-- A write that is taken, to a register that only stores. -/
theorem run_writeReg_of_stores {r : RegDef} {off lanes : Nat} (v : Nat) {d : Dev} (hlanes : lanes ≠ 0)
    (htakes : d.takesWrite r.base off ((indices r.dims (off - r.base)).getD 0 0) = true)
    (hstores : ∀ stored, writeAction r.base (indices r.dims (off - r.base)) lanes stored = none) :
    (writeReg r off lanes v).run d = (storeReg false r off lanes v).run d := by
  simp only [writeReg, Act.run_dyn, hlanes, htakes, hstores]
  rfl

/-- A write that reaches one register is a write of its lanes. -/
theorem softWrite_of_reaches {off width reg lanes : Nat} {r : RegDef} (h : Reaches off width r reg lanes) (v : Nat) :
    ∃ w, softWrite off width v = writeReg r reg lanes w := by
  obtain ⟨halign, ⟨rfl, hrow, hwide, rfl, rfl⟩ | ⟨rfl, hrow, rfl, rfl⟩ | ⟨rfl, hnone, hoff, hrow, hwide, rfl, rfl⟩⟩ := h
  · exact ⟨v % 2 ^ 64, by simp [softWrite, accessOk, halign, hrow, hwide]⟩
  · exact ⟨v % 2 ^ 32, by simp [softWrite, accessOk, halign, hrow, writeWord]⟩
  · exact ⟨v % 2 ^ 32 * 2 ^ 32, by simp [softWrite, accessOk, halign, hnone, hrow, hwide, hoff, writeWord]⟩

/-- The row of the register that a write reaches is the row of the register's own offset. -/
theorem regAt_of_reaches {off width reg lanes : Nat} {r : RegDef} (h : Reaches off width r reg lanes) :
    regAt reg = some r := by
  obtain ⟨-, ⟨-, hrow, -, rfl, -⟩ | ⟨-, hrow, rfl, -⟩ | ⟨-, -, -, hrow, -, rfl, -⟩⟩ := h <;> exact hrow

theorem accessOk_of_reaches {off width reg lanes : Nat} {r : RegDef} (h : Reaches off width r reg lanes) :
    accessOk off width = true := by
  obtain ⟨halign, ⟨rfl, -⟩ | ⟨rfl, -⟩ | ⟨rfl, -⟩⟩ := h <;> simp [accessOk, halign]

/-! ### The write of a sealed device (R5, R65) -/

/-- A register's RWL bits stayed, the write was counted as ignored, and memory stayed. -/
def IgnoresWrite (d : Dev) (r : RegDef) (reg : Nat) (e : Dev) : Prop :=
  (∀ i, bit r.rwl i = true → (e.reg reg).getLsbD i = (d.reg reg).getLsbD i) ∧
  e.fld CFG_SEAL_STATUS_IGNORED_WRITES = min (d.fld CFG_SEAL_STATUS_IGNORED_WRITES + 1) 0xFFFFFFFF ∧
  e.mem = d.mem

/-- An answer to the host changes nothing of that. -/
theorem IgnoresWrite.answerHost {d e : Dev} {r : RegDef} {reg : Nat} (h : IgnoresWrite d r reg e) (m : Msg) :
    IgnoresWrite d r reg ((answerHost m).run e) := by
  simpa only [IgnoresWrite, run_answerHost_reg, run_answerHost_fld, run_answerHost_mem] using h

section
variable {off width reg lanes : Nat} {r : RegDef} {d : Dev}

/-- Storing on a sealed device counts first, then keeps the RWL bits; of the engines only PWR_GATE_CTRL's may change. -/
theorem run_storeReg_sealed (v : Nat) (hrow : regAt reg = some r) (hlanes : r.rwl &&& lanes ≠ 0)
    (hsealed : d.flag CFG_SEAL_STATUS_SEALED = true) :
    IgnoresWrite d r reg ((storeReg false r reg lanes v).run d) ∧ ((storeReg false r reg lanes v).run d).eng =
      { d.eng with pwr := ((storeReg false r reg lanes v).run d).eng.pwr } := by
  have hrwl : r.rwl ≠ 0 := fun h => hlanes (by simp [h])
  have hcounts : (d.flag CFG_SEAL_STATUS_SEALED && lanes &&& r.rwl != 0) = true := by
    simpa [hsealed, Nat.and_comm] using hlanes
  rw [run_storeReg_soft, hcounts, Act.when_true, run_ungate]
  refine ⟨⟨fun i hi => ?_, ?_, ?_⟩, ?_⟩
  · rw [Dev.reg_eng, run_mayRecord_reg _ _ (not_ringRegs_of_rwl hrow hrwl), Act.run_reg_same]
    exact getLsbD_softStored_rwl _ _ _ (mem_regTable_of_regAt hrow).1 hsealed hi
  · have hkept : ((mayRecord (.reg reg (d.softStored r reg lanes v))).run
        ((Act.count CFG_SEAL_STATUS_IGNORED_WRITES 1).run d)).reg CFG_SEAL_STATUS =
        ((Act.count CFG_SEAL_STATUS_IGNORED_WRITES 1).run d).reg CFG_SEAL_STATUS := by
      rw [run_mayRecord_reg _ _ not_ringRegs_sealStatus, Act.run_reg_other _ _ _ _ (ne_sealStatus_of_rwl hrow hrwl)]
    rw [Dev.fld_eng, Dev.fld, show CFG_SEAL_STATUS_IGNORED_WRITES.reg = CFG_SEAL_STATUS from rfl, hkept]
    exact Act.run_count_same CFG_SEAL_STATUS_IGNORED_WRITES 1 d (by decide)
  · exact (run_mayRecord_mem _ _).trans rfl
  · rw [run_mayRecord_eng, Act.run_reg_eng, Act.run_count_eng]

/-- A software write to RWL bits of a sealed device. -/
theorem run_softWrite_sealed (v : Nat) (hreach : Reaches off width r reg lanes) (hlanes : r.rwl &&& lanes ≠ 0)
    (htakes : d.takesWrite r.base reg ((indices r.dims (reg - r.base)).getD 0 0) = true)
    (hsealed : d.flag CFG_SEAL_STATUS_SEALED = true) :
    IgnoresWrite d r reg ((softWrite off width v).run d) ∧ ((softWrite off width v).run d).eng =
      { d.eng with pwr := ((softWrite off width v).run d).eng.pwr } := by
  obtain ⟨w, hwrite⟩ := softWrite_of_reaches hreach v
  have hrow := regAt_of_reaches hreach
  have hne : lanes ≠ 0 := fun h => hlanes (by simp [h])
  have hrwl : r.rwl ≠ 0 := fun h => hlanes (by simp [h])
  rw [hwrite, run_writeReg_of_stores w hne htakes
    (writeAction_of_rwl (mem_regTable_of_regAt hrow).1 hrwl _ _)]
  exact run_storeReg_sealed w hrow hlanes hsealed

end

/-! ### Writes of the host to the register window (R147, R149) -/

/-- Whether a register takes a write does not depend on the credits that the companion processor holds. -/
theorem takesWrite_run_took (cls base off i : Nat) (d : Dev) :
    ((updAxl fun a => a.took cls).run d).takesWrite base off i = d.takesWrite base off i := rfl

/-- A write of a good width and alignment is a software write, answered OK. -/
theorem run_serveReg_write (m : Msg) (off : Nat) (d : Dev) (hop : m.op = opWrPart) (hpoison : m.poison = false)
    (hok : accessOk off m.len = true) : (serveReg m off).run d =
      (answerCmp m false).run ((softWrite off m.len (leAt m.data 0 m.len)).run d) := by
  have hform : (m.op == opRdUc || m.op == opWrPart) && (m.len == 4 || m.len == 8) := by
    simp [hop, width_of_accessOk hok]
  have hread : ¬ m.op = opRdUc := by rw [hop]; decide
  simp only [serveReg, Act.run_dyn, hform, hread, hpoison]
  simp

/-- The message of a host write to the register window. -/
def regWriteMsg (tag addr n v : Nat) : Msg :=
  { Msg.mk0 opWrPart with tag := tag % 16384, addr := addr, len := n, data := leBytes n v }

/-- In the host's turn a good WR_PART in AXL_REG_BAR takes its credit, is carried out as a software write, and is
answered. -/
theorem exec_wrPart_reg {off n : Nat} (tag v : Nat) (s : State) (halive : s.d.alive = true)
    (hturn : s.d.hostTurn = true) (hok : accessOk off n = true) (haddr : s.d.fld AXL_REG_BAR_BASE + off < 2 ^ 64) (hoff : off < 2 ^ 27) :
    exec (.wrPart tag (s.d.fld AXL_REG_BAR_BASE + off) n (leBytes n v) false .clean) s = .next { s with
      d := (answerHost { Msg.mk0 opCmp with tag := tag % 16384, addr := s.d.fld AXL_REG_BAR_BASE + off }).run
        ((softWrite off n (leAt (leBytes n v) 0 n)).run ((updAxl fun a => a.took 0).run s.d)) } := by
  have hlen : n % 128 = n := by rcases width_of_accessOk hok with rfl | rfl <;> rfl
  have hmsg : hostMsg opWrPart tag (s.d.fld AXL_REG_BAR_BASE + off) n 0 false (leBytes n v) =
      regWriteMsg tag (s.d.fld AXL_REG_BAR_BASE + off) n v := by
    simp only [hostMsg, regWriteMsg, Msg.mk0, Nat.mod_eq_of_lt haddr, hlen, Nat.zero_mod]
  have hserve := run_hostRequest_reg (regWriteMsg tag (s.d.fld AXL_REG_BAR_BASE + off) n v) .clean s.d hturn rfl
    ⟨Nat.le_add_right _ _, Nat.add_lt_add_left hoff _⟩
  have hwrite := run_serveReg_write (regWriteMsg tag (s.d.fld AXL_REG_BAR_BASE + off) n v) off
    ((updAxl fun a => a.took 0).run s.d) rfl rfl hok
  change cmd (hostRequest (hostMsg opWrPart tag _ n 0 false _) .clean) s = _
  rw [cmd_alive _ s halive, hmsg, hserve]
  simp only [regWriteMsg, Nat.add_sub_cancel_left] at hwrite ⊢
  rw [hwrite]
  rfl

/-- Settles O8: the seal leaves RWL bits out of what a write stores, and the table keeps them apart from RW and W1C bits,
from the registers whose write acts and from the event rings; a WR_PART does the same, and is answered. -/
theorem sealedWriteIsIgnored : Obligations.SealedWriteIsIgnored := by
  unfold Obligations.SealedWriteIsIgnored
  intro off width v s r reg lanes halive hreach hlanes htakes hsealed
  refine ⟨⟨_, cmd_alive _ s halive, rfl, run_softWrite_sealed v hreach hlanes htakes hsealed⟩, ?_⟩
  rintro tag _ hturn rfl haddr hoff
  refine ⟨_, exec_wrPart_reg tag v s halive hturn (accessOk_of_reaches hreach) haddr hoff, rfl, ?_,
    hasSent_run_answerHost _ _ (by decide : opClass opCmp ≠ 0)⟩
  have hserved := run_softWrite_sealed (d := (updAxl fun a => a.took 0).run s.d) (leAt (leBytes width v) 0 width)
    hreach hlanes ((takesWrite_run_took 0 _ _ _ s.d).trans htakes) hsealed
  exact hserved.1.answerHost _

end Sys2Proof.Machine
end

section
/-! Rings (06): which registers a ring error, a posted record and the commands of the rings may change; doorbells and head
writes, enabling, disabling, and the descriptor read that fails (R175 to R180, R674). -/

namespace Sys2Proof.Machine

/-! ### Acts that stay within a set of registers -/

/-- An act changes no register outside a set and no byte of memory; what it does to the engines is left open. -/
def Act.Within (a : Act) (S : Nat → Prop) : Prop := ∀ d, SameRegs d (a.run d) S ∧ (a.run d).mem = d.mem

section
variable {S T : Nat → Prop} {a b : Act}

theorem Act.Within.mem (h : a.Within S) (d : Dev) : (a.run d).mem = d.mem := (h d).2

/-- A field of a register outside the set keeps its value. -/
theorem Act.Within.fld (h : a.Within S) (d : Dev) {f : Fld} (hf : ¬ S f.reg) : (a.run d).fld f = d.fld f := by
  rw [Dev.fld, (h d).1 _ hf, Dev.fld]

theorem Act.Within.flag (h : a.Within S) (d : Dev) {f : Fld} (hf : ¬ S f.reg) : (a.run d).flag f = d.flag f := by
  rw [Dev.flag, h.fld d hf, Dev.flag]

theorem Act.Within.mono (h : a.Within S) (hsub : ∀ o, S o → T o) : a.Within T :=
  fun d => ⟨fun o ho => (h d).1 o fun hs => ho (hsub o hs), (h d).2⟩

theorem Act.Within.seq (ha : a.Within S) (hb : b.Within S) : (Act.seq a b).Within S :=
  fun d => ⟨fun o ho => ((hb _).1 o ho).trans ((ha d).1 o ho), (hb _).2.trans (ha d).2⟩

theorem Act.within_skip : Act.skip.Within S := fun _ => ⟨fun _ _ => rfl, rfl⟩

theorem Act.Within.when (c : Bool) (h : a.Within S) : (Act.when c a).Within S := by
  cases c with
  | true => exact h
  | false => exact Act.within_skip

theorem Act.within_eng (f : Eng → Eng) : (Act.eng f).Within S := fun _ => ⟨fun _ _ => rfl, rfl⟩

theorem Act.within_dyn {f : Dev → Act} (h : ∀ d, (f d).Within S) : (Act.dyn f).Within S := fun d => h d d

theorem Act.within_set (f : Fld) (v : Nat) (hf : S f.reg) : (Act.set f v).Within S :=
  fun d => ⟨fun o ho => Act.run_set_reg_other f v o d fun h => ho (h ▸ hf), rfl⟩

theorem Act.within_add (f : Fld) (n : Nat) (hf : S f.reg) : (Act.add f n).Within S :=
  Act.within_dyn fun _ => Act.within_set f _ hf

theorem Act.within_count (f : Fld) (n : Nat) (hf : S f.reg) : (Act.count f n).Within S :=
  Act.within_dyn fun _ => Act.within_set f _ hf

theorem Act.within_raise (flag counter : Fld) (hflag : S flag.reg) (hcounter : S counter.reg) :
    (Act.raise flag counter).Within S :=
  ((Act.within_set flag 1 hflag).seq (Act.within_eng _)).seq ((Act.within_add counter 1 hcounter).seq Act.within_skip)

end

/-- A raised flag reads 1, where its counter lies apart from it (R204). -/
theorem Act.run_raise_flag (flag counter : Fld) (d : Dev) (hwd : flag.wd = 1) (hlo : flag.lo < 64)
    (happart : counter.reg ≠ flag.reg ∨ flag.lo < counter.lo) : ((Act.raise flag counter).run d).flag flag = true := by
  have hset : ((Act.set flag 1).run d).fld flag = 1 :=
    (Act.run_set_same _ _ _ (by omega)).trans (Nat.mod_eq_of_lt (Nat.one_lt_two_pow (by omega)))
  have hadd (e : Dev) : ((Act.add counter 1).run e).fld flag = e.fld flag :=
    Act.run_set_other _ _ _ _ (happart.imp_right fun h => .inl (by omega))
  simp only [Act.raise, Act.mark, Act.run_all_cons, Act.run_all_nil, Act.run_seq, Act.run_eng, Dev.flag, hadd, Dev.fld_eng, hset]
  rfl

/-! ### Ring errors (R178, R207) -/

/-- A queue belongs to one of the 64 partitions. -/
theorem lt_of_queuePart {d : Dev} {q p : Nat} (h : d.queuePart q = some p) : p < 64 := by
  have hmem : p ∈ upTo 64 (formedIn d.eng.cfg.base) := List.mem_of_find?_eq_some h
  exact List.mem_range.mp (List.mem_filter.mp hmem).1

/-- The registers of queue q lie above those of the partitions. -/
theorem part_lt_queues {p : Nat} (h : p < 64) : PART_STATUS p < QUE_BASE 0 ∧ PART_ERROR_COUNT p < QUE_BASE 0 := by
  simp only [PART_STATUS, PART_ERROR_COUNT, QUE_BASE]
  omega

/-- A ring error changes QUE_STATUS of its queue and the QUEUE_ERROR flag and counter of the queue's partition. -/
theorem ringError_within {q : Nat} (code : Nat) {d : Dev} {S : Nat → Prop} (hstatus : S (QUE_STATUS q))
    (hpart : ∀ p, d.queuePart q = some p → S (PART_STATUS p) ∧ S (PART_ERROR_COUNT p)) :
    SameRegs d ((ringError q code).run d) S ∧ ((ringError q code).run d).mem = d.mem := by
  have hraise := Act.within_raise (QUE_STATUS_ERROR q) (QUE_STATUS_ERROR_COUNT q) hstatus hstatus
  have hcode := Act.within_set (QUE_STATUS_ERROR_CODE q) code hstatus
  cases hq : d.queuePart q with
  | none =>
    simp only [ringError, Act.run_dyn, hq]
    exact (hraise.seq (hcode.seq (Act.within_skip.seq Act.within_skip))) d
  | some p =>
    obtain ⟨hflag, hcounter⟩ := hpart p hq
    simp only [ringError, Act.run_dyn, hq]
    exact (hraise.seq (hcode.seq ((Act.within_raise _ _ hflag hcounter).seq Act.within_skip))) d

section
variable {q p : Nat} {d : Dev}

theorem run_ringError (code : Nat) (hp : d.queuePart q = some p) : (ringError q code).run d =
    (queueError p).run ((Act.set (QUE_STATUS_ERROR_CODE q) code).run
      ((Act.raise (QUE_STATUS_ERROR q) (QUE_STATUS_ERROR_COUNT q)).run d)) := by
  simp [ringError, hp]

/-- Of the engines a ring error changes only the flags raised in this tcycle. -/
theorem run_ringError_eng (code : Nat) (hp : d.queuePart q = some p) : ((ringError q code).run d).eng =
    { d.eng with tcyc := ((ringError q code).run d).eng.tcyc } := by
  rw [run_ringError code hp]
  rfl

/-- The partition's flag leaves the queue's status alone. -/
theorem run_queueError_fld {f : Fld} (hp : d.queuePart q = some p) (hf : f.reg = QUE_STATUS q) (e : Dev) :
    ((queueError p).run e).fld f = e.fld f := by
  obtain ⟨hstatus, hcount⟩ := part_lt_queues (lt_of_queuePart hp)
  refine (Act.within_raise (S := (· < QUE_BASE 0)) _ _ hstatus hcount).fld e ?_
  simp only [hf, QUE_STATUS, QUE_BASE]
  omega

theorem run_ringError_code {code : Nat} (hp : d.queuePart q = some p) (hcode : code < 256) :
    ((ringError q code).run d).fld (QUE_STATUS_ERROR_CODE q) = code := by
  rw [run_ringError code hp, run_queueError_fld hp rfl, Act.run_set_same _ _ _ (by simp [QUE_STATUS_ERROR_CODE])]
  exact Nat.mod_eq_of_lt hcode

theorem run_ringError_error (code : Nat) (hp : d.queuePart q = some p) :
    ((ringError q code).run d).flag (QUE_STATUS_ERROR q) = true := by
  rw [run_ringError code hp, Dev.flag, run_queueError_fld hp rfl,
    Act.run_set_other _ _ _ _ (.inr (.inl (by simp [QUE_STATUS_ERROR, QUE_STATUS_ERROR_CODE])))]
  exact Act.run_raise_flag _ _ _ rfl (by simp [QUE_STATUS_ERROR]) (.inr (by simp [QUE_STATUS_ERROR, QUE_STATUS_ERROR_COUNT]))

theorem run_ringError_queueError (code : Nat) (hp : d.queuePart q = some p) :
    ((ringError q code).run d).flag (PART_STATUS_QUEUE_ERROR p) = true := by
  rw [run_ringError code hp]
  refine Act.run_raise_flag _ _ _ rfl (by simp [PART_STATUS_QUEUE_ERROR]) (.inl ?_)
  simp only [PART_ERROR_COUNT_ERRORS, PART_STATUS_QUEUE_ERROR, PART_ERROR_COUNT, PART_STATUS]
  omega

end

/-! ### Records written into a ring (R154 to R156, R165, R674) -/

/-- The registers that a ring error or dropped records may change: those below the queues', and QUE_STATUS of the queue. -/
def errorRegs (q o : Nat) : Prop := o < QUE_BASE 0 ∨ o = QUE_STATUS q

/-- The registers that a record may change: beside those of an error, ENABLE, TAIL and the count of its ring. -/
def recordWriteRegs (q o : Nat) : Prop := errorRegs q o ∨ o = QUE_CFG q ∨ o = QUE_TAIL q ∨ o = QUE_COUNT q

/-- No error moves HEAD or TAIL, or changes ENABLE. -/
theorem not_errorRegs (q : Nat) : ¬ errorRegs q (QUE_HEAD q) ∧ ¬ errorRegs q (QUE_TAIL q) ∧ ¬ errorRegs q (QUE_CFG q) := by
  simp only [errorRegs, QUE_BASE, QUE_HEAD, QUE_TAIL, QUE_CFG, QUE_STATUS]
  omega

/-- No record moves HEAD. -/
theorem not_recordWriteRegs_head (q : Nat) : ¬ recordWriteRegs q (QUE_HEAD q) := by
  rintro (herror | hring)
  · exact (not_errorRegs q).1 herror
  · simp only [QUE_HEAD, QUE_CFG, QUE_TAIL, QUE_COUNT] at hring
    omega

theorem within_ringError (q code : Nat) : (ringError q code).Within (errorRegs q) :=
  fun _ => ringError_within code (.inr rfl) fun _ hp => (part_lt_queues (lt_of_queuePart hp)).imp .inl .inl

theorem within_evtLost (n : Nat) : (evtLost n).Within (· < QUE_BASE 0) := Act.within_count _ _ (by decide)

theorem within_windowRefusal : windowRefusal.Within (· < QUE_BASE 0) := Act.within_count _ _ (by decide)

/-- Dropping the held records counts them in AXL_EVT_LOST and clears HELD (R165, R180). -/
theorem within_dropHeld (q : Nat) : (dropHeld q).Within (errorRegs q) :=
  Act.within_dyn fun _ => ((within_evtLost _).mono fun _ => .inl).seq
    ((Act.within_eng _).seq ((Act.within_set _ _ (.inr rfl)).seq Act.within_skip))

theorem within_axlReq (m : Msg) (why : ReqFor) (task : Nat) {S : Nat → Prop} : (axlReq m why task).Within S :=
  Act.within_dyn fun _ => (Act.within_eng _).when _

/-- A record written, or refused by the windows and dropped with the ring disabled. -/
theorem within_ringWrite (q : Nat) (r : List Byte) : (ringWrite q r).Within (recordWriteRegs q) := by
  have hlow : ∀ o, o < QUE_BASE 0 → recordWriteRegs q o := fun o ho => .inl (.inl ho)
  have hcfg : recordWriteRegs q (QUE_CFG q) := .inr (.inl rfl)
  have htail : recordWriteRegs q (QUE_TAIL q) := .inr (.inr (.inl rfl))
  have hcount : recordWriteRegs q (QUE_COUNT q) := .inr (.inr (.inr rfl))
  refine Act.within_dyn fun d => ?_
  dsimp only
  split
  · exact ((within_evtLost _).mono hlow).seq ((within_windowRefusal.mono hlow).seq ((Act.within_set _ _ hcfg).seq
      (((within_ringError q _).mono fun _ => .inl).seq (((within_dropHeld q).mono fun _ => .inl).seq Act.within_skip))))
  · exact (Act.within_eng _).seq ((within_axlReq _ _ _).seq ((Act.within_set _ _ htail).seq
      ((Act.within_eng _).seq ((Act.within_add _ _ hcount).seq Act.within_skip))))

theorem within_flushHeld (q n : Nat) : (flushHeld q n).Within (recordWriteRegs q) := by
  have hstatus : recordWriteRegs q (QUE_STATUS q) := .inl (.inr rfl)
  induction n with
  | zero => exact Act.within_skip
  | succ n ih =>
    refine Act.within_dyn fun d => ?_
    split
    · exact Act.within_set _ _ hstatus
    · split
      · exact Act.within_skip
      · exact (Act.within_eng _).seq (((Act.within_set _ _ hstatus).when _).seq
          ((within_ringWrite q _).seq (ih.seq Act.within_skip)))

/-! ### Commands of a queue -/

/-- A command that a working device carries out. -/
theorem does_of_run {c : Instr} {a : Act} {s : State} {post : Dev → Prop} (hexec : exec c s = cmd a s)
    (halive : s.d.alive = true) (hpost : post (a.run s.d)) : Does c s post :=
  ⟨_, hexec.trans (cmd_alive a s halive), rfl, hpost⟩

section
variable {q p : Nat} {d : Dev}

theorem run_onQueue (a : Nat → Act) (hp : d.queuePart q = some p) (hopen : d.pageOpen p = true) :
    (onQueue q a).run d = (a p).run d := by
  simp [onQueue, hp, hopen]

/-! ### Doorbells (R177, R178) -/

/-- A submission, copy or fabric-send ring is no completion and no event ring. -/
theorem not_recordRing {k : Nat} (hk : k ∈ [1, 3, 4]) : (k == 2 || k == 5) = false := by
  simp only [List.mem_cons, List.not_mem_nil, or_false] at hk
  obtain rfl | rfl | rfl := hk <;> rfl

theorem run_doorbell_taken {tail : Nat} (hp : d.queuePart q = some p) (hopen : d.pageOpen p = true)
    (hkind : d.queueKind q ∈ [1, 3, 4]) (hen : d.ringEnabled q = true) (hlt : tail < d.ringSize q)
    (hfree : (tail + d.ringSize q - d.fld (QUE_TAIL_TAIL q)) % d.ringSize q + d.ringPending q + 1 ≤ d.ringSize q) :
    (doorbell q tail).run d = (Act.set (QUE_TAIL_TAIL q) tail).run d := by
  simp only [doorbell, run_onQueue _ hp hopen, Act.run_dyn, not_recordRing hkind, hen, Nat.not_le.mpr hlt, hfree,
    Bool.not_true, Bool.false_eq_true, if_false, if_true]

theorem run_doorbell_error {tail : Nat} (hp : d.queuePart q = some p) (hopen : d.pageOpen p = true)
    (hkind : d.queueKind q ∈ [1, 3, 4]) (hbad : d.ringEnabled q = false ∨ d.ringSize q ≤ tail ∨ d.ringSize q <
      (tail + d.ringSize q - d.fld (QUE_TAIL_TAIL q)) % d.ringSize q + d.ringPending q + 1) :
    (doorbell q tail).run d = (ringError q (if d.ringEnabled q then qeBadDoorbell else qeNotEnabled)).run d := by
  simp only [doorbell, run_onQueue _ hp hopen, Act.run_dyn, not_recordRing hkind]
  cases hen : d.ringEnabled q with
  | false => simp
  | true =>
    by_cases hsize : d.ringSize q ≤ tail
    · simp [hsize]
    · have hfull := (hbad.resolve_left (by simp [hen])).resolve_left hsize
      simp [hsize, Nat.not_le.mpr hfull]

theorem does_doorbell_taken {tail : Nat} {s : State} (halive : s.d.alive = true) (hp : s.d.queuePart q = some p)
    (hopen : s.d.pageOpen p = true) (hkind : s.d.queueKind q ∈ [1, 3, 4]) (hen : s.d.ringEnabled q = true)
    (hlt : tail < s.d.ringSize q) (hmax : s.d.ringSize q ≤ 65536)
    (hfree : (tail + s.d.ringSize q - s.d.fld (QUE_TAIL_TAIL q)) % s.d.ringSize q + s.d.ringPending q + 1 ≤ s.d.ringSize q) :
    Does (.doorbell q tail) s fun e => e.fld (QUE_TAIL_TAIL q) = tail ∧ e.eng = s.d.eng ∧ e.mem = s.d.mem ∧
      SameRegs s.d e (· = QUE_TAIL q) := by
  refine does_of_run rfl halive ?_
  rw [run_doorbell_taken hp hopen hkind hen hlt hfree, Act.run_set_same _ _ _ (by simp [QUE_TAIL_TAIL])]
  exact ⟨Nat.mod_eq_of_lt (Nat.lt_of_lt_of_le hlt hmax), rfl, rfl, (Act.within_set (S := (· = QUE_TAIL q)) _ _ rfl s.d).1⟩

theorem does_doorbell_error {tail : Nat} {s : State} (halive : s.d.alive = true) (hp : s.d.queuePart q = some p)
    (hopen : s.d.pageOpen p = true) (hkind : s.d.queueKind q ∈ [1, 3, 4])
    (hbad : s.d.ringEnabled q = false ∨ s.d.ringSize q ≤ tail ∨ s.d.ringSize q <
      (tail + s.d.ringSize q - s.d.fld (QUE_TAIL_TAIL q)) % s.d.ringSize q + s.d.ringPending q + 1) :
    Does (.doorbell q tail) s fun e => e.fld (QUE_TAIL_TAIL q) = s.d.fld (QUE_TAIL_TAIL q) ∧
      e.flag (QUE_STATUS_ERROR q) = true ∧
      e.fld (QUE_STATUS_ERROR_CODE q) = (if s.d.ringEnabled q then qeBadDoorbell else qeNotEnabled) ∧
      e.flag (PART_STATUS_QUEUE_ERROR p) = true ∧ e.eng = { s.d.eng with tcyc := e.eng.tcyc } ∧ e.mem = s.d.mem ∧
      SameRegs s.d e fun o => o = QUE_STATUS q ∨ o = PART_STATUS p ∨ o = PART_ERROR_COUNT p := by
  refine does_of_run rfl halive ?_
  rw [run_doorbell_error hp hopen hkind hbad]
  have hcode : (if s.d.ringEnabled q then qeBadDoorbell else qeNotEnabled) < 256 := by split <;> decide
  obtain ⟨hregs, hmem⟩ := ringError_within (if s.d.ringEnabled q then qeBadDoorbell else qeNotEnabled)
    (S := fun o => o = QUE_STATUS q ∨ o = PART_STATUS p ∨ o = PART_ERROR_COUNT p) (.inl rfl) fun p' hp' =>
      Option.some.inj (hp.symm.trans hp') ▸ ⟨.inr (.inl rfl), .inr (.inr rfl)⟩
  exact ⟨(within_ringError q _).fld _ (not_errorRegs q).2.1, run_ringError_error _ hp, run_ringError_code hp hcode,
    run_ringError_queueError _ hp, run_ringError_eng _ hp, hmem, hregs⟩

/-! ### Head writes (R179) -/

/-- A completion or an event ring. -/
theorem recordRing_of_mem {k : Nat} (hk : k ∈ [2, 5]) : (k != 2 && k != 5) = false := by
  simp only [List.mem_cons, List.not_mem_nil, or_false] at hk
  obtain rfl | rfl := hk <;> rfl

theorem run_headWrite_taken {head : Nat} (hp : d.queuePart q = some p) (hopen : d.pageOpen p = true)
    (hkind : d.queueKind q ∈ [2, 5]) (hlt : head < d.ringSize q)
    (hpending : (head + d.ringSize q - d.fld (QUE_HEAD_HEAD q)) % d.ringSize q ≤ d.ringPending q) :
    (headWrite q head).run d = (flushHeld q (d.ring q).held.length).run ((Act.set (QUE_HEAD_HEAD q) head).run d) := by
  simp only [headWrite, run_onQueue _ hp hopen, Act.run_dyn, recordRing_of_mem hkind]
  simp [Nat.not_le.mpr hlt, Nat.not_lt.mpr hpending, Dev.ring]

theorem run_headWrite_error {head : Nat} (hp : d.queuePart q = some p) (hopen : d.pageOpen p = true)
    (hkind : d.queueKind q ∈ [2, 5]) (hbad : d.ringSize q ≤ head ∨ d.ringPending q <
      (head + d.ringSize q - d.fld (QUE_HEAD_HEAD q)) % d.ringSize q) :
    (headWrite q head).run d = (ringError q qeBadHead).run d := by
  simp only [headWrite, run_onQueue _ hp hopen, Act.run_dyn, recordRing_of_mem hkind]
  simp [hbad]

theorem does_headWrite_taken {head : Nat} {s : State} (halive : s.d.alive = true) (hp : s.d.queuePart q = some p)
    (hopen : s.d.pageOpen p = true) (hkind : s.d.queueKind q ∈ [2, 5]) (hlt : head < s.d.ringSize q)
    (hmax : s.d.ringSize q ≤ 65536)
    (hpending : (head + s.d.ringSize q - s.d.fld (QUE_HEAD_HEAD q)) % s.d.ringSize q ≤ s.d.ringPending q) :
    Does (.headWrite q head) s fun e => e.fld (QUE_HEAD_HEAD q) = head ∧ SameMem s.d e := by
  refine does_of_run rfl halive ?_
  rw [run_headWrite_taken hp hopen hkind hlt hpending]
  have hflush := within_flushHeld q (s.d.ring q).held.length
  refine ⟨?_, fun k => congrArg (Store.get memDflt k) (hflush.mem _)⟩
  rw [hflush.fld _ (not_recordWriteRegs_head q), Act.run_set_same _ _ _ (by simp [QUE_HEAD_HEAD])]
  exact Nat.mod_eq_of_lt (Nat.lt_of_lt_of_le hlt hmax)

theorem does_headWrite_error {head : Nat} {s : State} (halive : s.d.alive = true) (hp : s.d.queuePart q = some p)
    (hopen : s.d.pageOpen p = true) (hkind : s.d.queueKind q ∈ [2, 5]) (hbad : s.d.ringSize q ≤ head ∨ s.d.ringPending q <
      (head + s.d.ringSize q - s.d.fld (QUE_HEAD_HEAD q)) % s.d.ringSize q) :
    Does (.headWrite q head) s fun e => e.fld (QUE_HEAD_HEAD q) = s.d.fld (QUE_HEAD_HEAD q) ∧
      e.fld (QUE_STATUS_ERROR_CODE q) = qeBadHead ∧ e.mem = s.d.mem := by
  refine does_of_run rfl halive ?_
  rw [run_headWrite_error hp hopen hkind hbad]
  exact ⟨(within_ringError q _).fld _ (not_errorRegs q).1, run_ringError_code hp (by decide), (within_ringError q _).mem _⟩

/-! ### Enabling and disabling (R175, R180) -/

/-- What enabling a ring does to it: ENABLE is set, HEAD and TAIL are 0, and the first pass starts. -/
def enableFresh (q : Nat) : Act := .all [Act.set (QUE_CFG_ENABLE q) 1, Act.set (QUE_HEAD_HEAD q) 0,
  Act.set (QUE_TAIL_TAIL q) 0, updRing q fun _ => Ring.empty]

theorem run_ringOn_taken (hp : d.queuePart q = some p) (hopen : d.pageOpen p = true) (hoff : d.ringEnabled q = false)
    (hmin : 4 ≤ d.fld (QUE_CFG_LOG2_SIZE q)) (hmax : d.fld (QUE_CFG_LOG2_SIZE q) ≤ 16)
    (hreach : if d.flag (QUE_BASE_LOC q) then d.queueKind q ∈ [1, 3, 4] ∧
        d.inMemory p (d.fld (QUE_BASE_BASE q) * 4096) (64 * 2 ^ d.fld (QUE_CFG_LOG2_SIZE q)) = true
      else d.hostPermit p (d.fld (QUE_BASE_BASE q) * 4096) (64 * 2 ^ d.fld (QUE_CFG_LOG2_SIZE q))
        (d.queueKind q == 2 || d.queueKind q == 5) = true) :
    (ringOn q).run d = (copyBootLog q).run ((enableFresh q).run d) := by
  simp only [ringOn, run_onQueue _ hp hopen, Act.run_dyn, hoff, Bool.not_false, Act.when_true, ringEnable]
  cases hloc : d.flag (QUE_BASE_LOC q) with
  | true =>
    obtain ⟨hkind, hmem⟩ := by simpa only [hloc, if_true] using hreach
    simp [enableFresh, not_recordRing hkind, hmem, Nat.not_lt.mpr hmin, Nat.not_lt.mpr hmax]
  | false =>
    have hpermit := by simpa only [hloc, Bool.false_eq_true, if_false] using hreach
    simp [enableFresh, hpermit, Nat.not_lt.mpr hmin, Nat.not_lt.mpr hmax]

theorem run_ringOn_size (hp : d.queuePart q = some p) (hopen : d.pageOpen p = true) (hoff : d.ringEnabled q = false)
    (hsize : d.fld (QUE_CFG_LOG2_SIZE q) < 4 ∨ 16 < d.fld (QUE_CFG_LOG2_SIZE q)) :
    (ringOn q).run d = (ringError q qeConfigWhileEnabled).run d := by
  simp [ringOn, run_onQueue _ hp hopen, hoff, ringEnable, hsize]

/-- Only the host event ring takes the boot log (R120, R121). -/
theorem run_copyBootLog_other (h : q ≠ d.hostRing) : (copyBootLog q).run d = d := by
  have hother : (q == d.hostRing) = false := beq_false_of_ne h
  simp [copyBootLog, hother, h]

theorem within_enableFresh (q : Nat) :
    (enableFresh q).Within fun o => o = QUE_CFG q ∨ o = QUE_HEAD q ∨ o = QUE_TAIL q :=
  (Act.within_set _ _ (.inl rfl)).seq ((Act.within_set _ _ (.inr (.inl rfl))).seq
    ((Act.within_set _ _ (.inr (.inr rfl))).seq ((Act.within_eng _).seq Act.within_skip)))

theorem run_enableFresh (q : Nat) (d : Dev) :
    ((enableFresh q).run d).ringEnabled q = true ∧ ((enableFresh q).run d).fld (QUE_HEAD_HEAD q) = 0 ∧
      ((enableFresh q).run d).fld (QUE_TAIL_TAIL q) = 0 ∧ ((enableFresh q).run d).ring q = Ring.empty := by
  have hregs : QUE_TAIL q ≠ QUE_CFG q ∧ QUE_HEAD q ≠ QUE_CFG q ∧ QUE_TAIL q ≠ QUE_HEAD q := by
    simp only [QUE_TAIL, QUE_CFG, QUE_HEAD]
    omega
  obtain ⟨htailCfg, hheadCfg, htailHead⟩ := hregs
  simp only [enableFresh, updRing, Act.run_all_cons, Act.run_all_nil, Act.run_eng, Dev.ringEnabled, Dev.flag, Dev.fld_eng,
    Dev.ring, Store.get_put_same]
  refine ⟨?_, ?_, Act.run_set_same _ _ _ (by simp [QUE_TAIL_TAIL]), trivial⟩
  · rw [Act.run_set_other _ _ _ _ (.inl htailCfg), Act.run_set_other _ _ _ _ (.inl hheadCfg),
      Act.run_set_same _ _ _ (by simp [QUE_CFG_ENABLE])]
    rfl
  · rw [Act.run_set_other _ _ _ _ (.inl htailHead), Act.run_set_same _ _ _ (by simp [QUE_HEAD_HEAD])]
    rfl

/-- Enabling a ring does not move the host event ring. -/
theorem run_enableFresh_hostRing (q : Nat) (d : Dev) : ((enableFresh q).run d).hostRing = d.hostRing :=
  (within_enableFresh q).fld d (by
    simp only [CFG_HOST_EVENT_QUEUE_QUEUE, CFG_HOST_EVENT_QUEUE, QUE_CFG, QUE_HEAD, QUE_TAIL]
    omega)

theorem does_ringEnable_taken {s : State} (halive : s.d.alive = true) (hp : s.d.queuePart q = some p)
    (hopen : s.d.pageOpen p = true) (hoff : s.d.ringEnabled q = false)
    (hmin : 4 ≤ s.d.fld (QUE_CFG_LOG2_SIZE q)) (hmax : s.d.fld (QUE_CFG_LOG2_SIZE q) ≤ 16)
    (hreach : if s.d.flag (QUE_BASE_LOC q) then s.d.queueKind q ∈ [1, 3, 4] ∧
        s.d.inMemory p (s.d.fld (QUE_BASE_BASE q) * 4096) (64 * 2 ^ s.d.fld (QUE_CFG_LOG2_SIZE q)) = true
      else s.d.hostPermit p (s.d.fld (QUE_BASE_BASE q) * 4096) (64 * 2 ^ s.d.fld (QUE_CFG_LOG2_SIZE q))
        (s.d.queueKind q == 2 || s.d.queueKind q == 5) = true) (hother : q ≠ s.d.hostRing) :
    Does (.ringEnable q) s fun e => e.ringEnabled q = true ∧ e.fld (QUE_HEAD_HEAD q) = 0 ∧ e.fld (QUE_TAIL_TAIL q) = 0 ∧
      e.ring q = Ring.empty ∧ e.mem = s.d.mem ∧
      SameRegs s.d e fun o => o = QUE_CFG q ∨ o = QUE_HEAD q ∨ o = QUE_TAIL q := by
  refine does_of_run rfl halive ?_
  have hstill : q ≠ ((enableFresh q).run s.d).hostRing := fun h => hother (h.trans (run_enableFresh_hostRing q s.d))
  rw [run_ringOn_taken hp hopen hoff hmin hmax hreach, run_copyBootLog_other hstill]
  obtain ⟨hen, hhead, htail, hring⟩ := run_enableFresh q s.d
  obtain ⟨hregs, hmem⟩ := within_enableFresh q s.d
  exact ⟨hen, hhead, htail, hring, hmem, hregs⟩

theorem does_ringEnable_size {s : State} (halive : s.d.alive = true) (hp : s.d.queuePart q = some p)
    (hopen : s.d.pageOpen p = true) (hoff : s.d.ringEnabled q = false)
    (hsize : s.d.fld (QUE_CFG_LOG2_SIZE q) < 4 ∨ 16 < s.d.fld (QUE_CFG_LOG2_SIZE q)) :
    Does (.ringEnable q) s fun e => e.ringEnabled q = false ∧
      e.fld (QUE_STATUS_ERROR_CODE q) = qeConfigWhileEnabled ∧ e.mem = s.d.mem := by
  refine does_of_run rfl halive ?_
  rw [run_ringOn_size hp hopen hoff hsize]
  exact ⟨((within_ringError q _).flag _ (not_errorRegs q).2.2).trans hoff, run_ringError_code hp (by decide),
    (within_ringError q _).mem _⟩

/-- A ring whose ENABLE is cleared stays disabled through whatever an error may change. -/
theorem ringEnabled_of_cleared {rest : Act} (hrest : rest.Within (errorRegs q)) (d : Dev) :
    (rest.run ((Act.set (QUE_CFG_ENABLE q) 0).run d)).ringEnabled q = false := by
  rw [Dev.ringEnabled, hrest.flag _ (not_errorRegs q).2.2, Dev.flag, Act.run_set_same _ _ _ (by simp [QUE_CFG_ENABLE])]
  rfl

/-- Disabling clears ENABLE; what follows changes the queue's status and the count of lost records. -/
theorem run_ringOff (hp : d.queuePart q = some p) (hopen : d.pageOpen p = true) (hen : d.ringEnabled q = true) :
    ∃ rest : Act, rest.Within (errorRegs q) ∧ (ringOff q).run d = rest.run ((Act.set (QUE_CFG_ENABLE q) 0).run d) := by
  refine ⟨.all [Act.set (QUE_STATUS_BLOCKED q) 0, updRing q fun r => { r with desc := none, wait := 0 },
    Act.when (d.queueKind q == 2 || d.queueKind q == 5) (dropHeld q)], ?_, ?_⟩
  · exact (Act.within_set _ _ (.inr rfl)).seq ((Act.within_eng _).seq (((within_dropHeld q).when _).seq Act.within_skip))
  · simp only [ringOff, run_onQueue _ hp hopen, Act.run_dyn, hen, Act.when_true, ringDisable, Act.run_all_cons]

theorem does_ringDisable {s : State} (halive : s.d.alive = true) (hp : s.d.queuePart q = some p)
    (hopen : s.d.pageOpen p = true) (hen : s.d.ringEnabled q = true) :
    Does (.ringDisable q) s fun e => e.ringEnabled q = false ∧
      e.fld (QUE_HEAD_HEAD q) = s.d.fld (QUE_HEAD_HEAD q) ∧ e.fld (QUE_TAIL_TAIL q) = s.d.fld (QUE_TAIL_TAIL q) ∧
      e.mem = s.d.mem := by
  refine does_of_run rfl halive ?_
  obtain ⟨rest, hrest, hrun⟩ := run_ringOff hp hopen hen
  obtain ⟨hhead, htail, -⟩ := not_errorRegs q
  have hregs : QUE_CFG q ≠ QUE_HEAD q ∧ QUE_CFG q ≠ QUE_TAIL q := by
    simp only [QUE_CFG, QUE_HEAD, QUE_TAIL]
    omega
  rw [hrun]
  exact ⟨ringEnabled_of_cleared hrest _, (hrest.fld _ hhead).trans (Act.run_set_other _ _ _ _ (.inl hregs.1)),
    (hrest.fld _ htail).trans (Act.run_set_other _ _ _ _ (.inl hregs.2)), hrest.mem _⟩

/-! ### Descriptor reads that fail (R674) -/

/-- A failed descriptor read disables the ring with an error; what follows counts the read, below the queues' registers. -/
theorem run_ringAccessFault (timeout : Bool) (hp : d.queuePart q = some p) (hen : d.ringEnabled q = true)
    (hkind : d.queueKind q ∈ [1, 3, 4]) (hpending : d.ringPending q ≠ 0) (hdesc : (d.ring q).desc = none)
    (hread : d.flag (QUE_BASE_LOC q) = false ∨ d.descriptor p q [] = none) :
    ∃ rest : Act, rest.Within (· < QUE_BASE 0) ∧ (ringAccessFault q timeout).run d = rest.run
      ((ringError q qeRingAccess).run ((Act.set (QUE_STATUS_BLOCKED q) 0).run ((Act.set (QUE_CFG_ENABLE q) 0).run d))) := by
  have hworks : (d.queueKind q == 1 || d.queueKind q == 3 || d.queueKind q == 4) = true := by simpa [or_assoc] using hkind
  have hfails : (!d.flag (QUE_BASE_LOC q) || (d.descriptor p q []).isNone) = true := by simpa using hread
  have htimeout : ((Act.count AXL_CONTAIN_COUNT_TIMEOUTS 1).seq (.eng fun e => { e with
      axl := { e.axl with retired := e.axl.retired ++ (e.axl.freeTag).toList } })).Within (· < QUE_BASE 0) :=
    (Act.within_count _ _ (by decide)).seq (Act.within_eng _)
  simp only [ringAccessFault, Act.run_dyn, hp, Option.getD_some, hworks, hfails, hen, hdesc, Option.isNone_none,
    bne_iff_ne.mpr hpending, Bool.and_true, if_true, Act.run_all_cons, Act.run_all_nil]
  refine ⟨_, ?_, rfl⟩
  split
  · exact within_windowRefusal
  · exact htimeout.when _

theorem does_ringAccessFault (timeout : Bool) {s : State} (halive : s.d.alive = true) (hp : s.d.queuePart q = some p)
    (hen : s.d.ringEnabled q = true) (hkind : s.d.queueKind q ∈ [1, 3, 4]) (hpending : s.d.ringPending q ≠ 0)
    (hdesc : (s.d.ring q).desc = none) (hread : s.d.flag (QUE_BASE_LOC q) = false ∨ s.d.descriptor p q [] = none) :
    Does (.ringAccessFault ⟨q, timeout⟩) s fun e => e.ringEnabled q = false ∧
      e.fld (QUE_STATUS_ERROR_CODE q) = qeRingAccess ∧ e.mem = s.d.mem := by
  refine does_of_run rfl halive ?_
  obtain ⟨rest, hrest, hrun⟩ := run_ringAccessFault timeout hp hen hkind hpending hdesc hread
  have hafter : ((Act.set (QUE_STATUS_BLOCKED q) 0).seq ((ringError q qeRingAccess).seq rest)).Within (errorRegs q) :=
    (Act.within_set _ _ (.inr rfl)).seq ((within_ringError q _).seq (hrest.mono fun _ => .inl))
  have hstatus : ¬ QUE_STATUS q < QUE_BASE 0 := by
    simp only [QUE_STATUS, QUE_BASE]
    omega
  rw [hrun]
  exact ⟨ringEnabled_of_cleared hafter _, (hrest.fld _ hstatus).trans (run_ringError_code hp (by decide)), hafter.mem _⟩

end

/-- Settles O26: each command of a ring is one change of the queue's registers or one ring error, and what may follow it,
records and counts, stays away from HEAD and from memory. -/
theorem ringsTakeWork : Obligations.RingsTakeWork := by
  unfold Obligations.RingsTakeWork
  refine ⟨fun q p tail s halive hp _ hopen hkind => ⟨?_, ?_⟩, fun q p head s halive hp _ hopen hkind => ⟨?_, ?_⟩,
    fun q p s halive hp hopen => ⟨?_, ?_, ?_, ?_⟩⟩
  · exact does_doorbell_taken halive hp hopen hkind
  · exact does_doorbell_error halive hp hopen hkind
  · exact does_headWrite_taken halive hp hopen hkind
  · exact does_headWrite_error halive hp hopen hkind
  · exact does_ringEnable_taken halive hp hopen
  · exact does_ringEnable_size halive hp hopen
  · exact does_ringDisable halive hp hopen
  · exact fun timeout => does_ringAccessFault timeout halive hp

end Sys2Proof.Machine
end

section
/-! Footprints of acts: which registers an act may change, whether it may write device memory, and what of the engines it
leaves as it is, read off the primitive changes that the act is made of. -/

namespace Sys2Proof.Machine

/-! ### Footprints of acts -/

/-- What acts of a kind keep to: the registers they may change, whether they may write device memory, and what of the
engines they leave as it is. -/
structure Foot (α : Type) where
  regs : Nat → Prop
  mem : Prop
  eng : Eng → α

/-- Every primitive change that an act is made of keeps to a footprint. -/
def Act.Stays {α : Type} (F : Foot α) : Act → Prop
  | .skip => True
  | .reg o _ => F.regs o
  | .forget lo hi => ∀ o, lo ≤ o → o < hi → F.regs o
  | .byte _ _ => F.mem
  | .zero _ _ => F.mem
  | .eng f => ∀ e, F.eng (f e) = F.eng e
  | .seq a b => a.Stays F ∧ b.Stays F
  | .dyn f => ∀ d, (f d).Stays F

section
variable {α β : Type} {F : Foot α} {a b : Act}

@[simp] theorem Act.stays_skip : Act.skip.Stays F := trivial
@[simp] theorem Act.stays_reg (o : Nat) (v : DWord) : (Act.reg o v).Stays F ↔ F.regs o := Iff.rfl
@[simp] theorem Act.stays_byte (k : Nat) (v : Byte) : (Act.byte k v).Stays F ↔ F.mem := Iff.rfl
@[simp] theorem Act.stays_eng (f : Eng → Eng) : (Act.eng f).Stays F ↔ ∀ e, F.eng (f e) = F.eng e := Iff.rfl
@[simp] theorem Act.stays_seq : (Act.seq a b).Stays F ↔ a.Stays F ∧ b.Stays F := Iff.rfl
@[simp] theorem Act.stays_dyn (f : Dev → Act) : (Act.dyn f).Stays F ↔ ∀ d, (f d).Stays F := Iff.rfl
@[simp] theorem Act.stays_set (f : Fld) (v : Nat) : (Act.set f v).Stays F ↔ F.regs f.reg :=
  ⟨fun h => h State.reset.d, fun h _ => h⟩
@[simp] theorem Act.stays_add (f : Fld) (n : Nat) : (Act.add f n).Stays F ↔ F.regs f.reg :=
  ⟨fun h => h State.reset.d State.reset.d, fun h _ _ => h⟩
@[simp] theorem Act.stays_count (f : Fld) (n : Nat) : (Act.count f n).Stays F ↔ F.regs f.reg :=
  ⟨fun h => h State.reset.d State.reset.d, fun h _ _ => h⟩

@[simp] theorem Act.stays_ite (c : Prop) {_ : Decidable c} :
    (if c then a else b).Stays F ↔ (c → a.Stays F) ∧ (¬ c → b.Stays F) := by
  split <;> simp [*]

@[simp] theorem Act.stays_when (c : Bool) : (Act.when c a).Stays F ↔ (c = true → a.Stays F) := by simp [Act.when]

@[simp] theorem Act.stays_all (l : List Act) : (Act.all l).Stays F ↔ ∀ a ∈ l, a.Stays F := by
  induction l with
  | nil => simp [Act.all]
  | cons a t ih => simp [Act.all, ih]

@[simp] theorem Act.stays_each {γ : Type} (l : List γ) (f : γ → Act) :
    (Act.each l f).Stays F ↔ ∀ x ∈ l, (f x).Stays F := by simp [Act.each]

/-- A footprint that allows more. -/
theorem Act.Stays.mono {G : Foot β} (h : a.Stays F) (hregs : ∀ o, F.regs o → G.regs o) (hmem : F.mem → G.mem)
    (heng : ∀ e e', F.eng e = F.eng e' → G.eng e = G.eng e') : a.Stays G := by
  induction a with
  | skip => trivial
  | reg o v => exact hregs o h
  | forget lo hi => exact fun o hlo hhi => hregs o (h o hlo hhi)
  | byte k v => exact hmem h
  | zero lo hi => exact hmem h
  | eng f => exact fun e => heng _ _ (h e)
  | seq a b iha ihb => exact ⟨iha h.1, ihb h.2⟩
  | dyn f ih => exact fun d => ih d (h d)

/-- A register outside the footprint reads as before. -/
theorem Act.Stays.reg (h : a.Stays F) (d : Dev) {o : Nat} (ho : ¬ F.regs o) : (a.run d).reg o = d.reg o := by
  induction a generalizing d with
  | skip | byte | zero | eng => rfl
  | reg o' v => exact Act.run_reg_other _ _ _ _ fun he => ho (he ▸ h)
  | forget lo hi =>
    refine Store.get_drop_out resetOf (fun k => decide (lo ≤ k) && decide (k < hi)) o d.regs (Bool.eq_false_iff.mpr ?_)
    intro hin
    simp only [Bool.and_eq_true, decide_eq_true_eq] at hin
    exact ho (h o hin.1 hin.2)
  | seq a b iha ihb => exact (ihb h.2 _).trans (iha h.1 d)
  | dyn f ih => exact ih d (h d) d

theorem Act.Stays.fld (h : a.Stays F) (d : Dev) {f : Fld} (hf : ¬ F.regs f.reg) : (a.run d).fld f = d.fld f := by
  rw [Dev.fld, h.reg d hf, Dev.fld]

theorem Act.Stays.mem (h : a.Stays F) (d : Dev) (hF : ¬ F.mem) : (a.run d).mem = d.mem := by
  induction a generalizing d with
  | skip | reg | forget | eng => rfl
  | byte | zero => exact absurd h hF
  | seq a b iha ihb => exact (ihb h.2 _).trans (iha h.1 d)
  | dyn f ih => exact ih d (h d) d

theorem Act.Stays.eng (h : a.Stays F) (d : Dev) : F.eng (a.run d).eng = F.eng d.eng := by
  induction a generalizing d with
  | skip | reg | forget | byte | zero => rfl
  | eng f => exact h d.eng
  | seq a b iha ihb => exact (ihb h.2 _).trans (iha h.1 d)
  | dyn f ih => exact ih d (h d) d

end

/-! ### The footprints -/

/-- Sending, answering and stopping tasks: registers below the training block other than FAB_STATUS, no memory, nothing of
reduction. -/
abbrev quietFoot : Foot Red where
  regs o := o ≠ FAB_STATUS ∧ o < TRN_CFG 0
  mem := False
  eng := Eng.red

/-- The registers that an installed decision leaves with values of its own: TRN_LS and TRN_STEP of the partitions, and
FAB_STATUS. -/
def decisionReg (o : Nat) : Prop := o = FAB_STATUS ∨ ∃ i < 64, o = TRN_LS i ∨ o = TRN_STEP i

/-- What follows an installation: any register but those of a decision, any memory, and not the drop set. -/
abbrev afterFoot : Foot (List Nat) where
  regs o := ¬ decisionReg o
  mem := True
  eng e := e.red.drop

theorem not_decisionReg_of_lt {o : Nat} (h : o ≠ FAB_STATUS ∧ o < TRN_CFG 0) : ¬ decisionReg o := by
  simp only [TRN_CFG] at h
  simp only [decisionReg, TRN_LS, TRN_STEP, not_or, not_exists, not_and]
  exact ⟨h.1, fun i _ => by omega⟩

theorem not_decisionReg_of_ge {o : Nat} (h : 0xF03000 ≤ o) : ¬ decisionReg o := by
  simp only [decisionReg, FAB_STATUS, TRN_LS, TRN_STEP, not_or, not_exists, not_and]
  exact ⟨by omega, fun i _ => by omega⟩

theorem Act.Stays.after {a : Act} (h : a.Stays quietFoot) : a.Stays afterFoot :=
  h.mono (fun _ => not_decisionReg_of_lt) False.elim fun _ _ => congrArg Red.drop

end Sys2Proof.Machine
end

section
/-! What the shared operations keep to: packets, event rings and tasks that end leave training, memory and reduction alone
(R535 to R554, R573, R645); records, writes of memory, tallies and the packets that waited set none of the registers of a
decision and not the drop set (R426, R462, R512, R577). -/

namespace Sys2Proof.Machine

/-! ### Packets -/

theorem choosePort_lt {d : Dev} {k : Pkt} {j : Nat} (h : d.choosePort k = some j) : j < 32 := by
  have hmem : j ∈ if k.bySlot then d.slotPorts (k.dest % 8) else d.routePorts k.dest :=
    List.mem_of_getElem? (Option.ite_none_left_eq_some.mp h).2
  split at hmem <;> exact List.mem_range.mp (List.mem_filter.mp hmem).1

@[simp] theorem quiet_setPort (j : Nat) (f : Port → Port) : (setPort j f).Stays quietFoot := fun _ => rfl

theorem quiet_portSend {j : Nat} (hj : j < 32) (k : Pkt) : (portSend j k).Stays quietFoot := by
  have hreg : FAB_PORT_TRAFFIC j ≠ FAB_STATUS ∧ FAB_PORT_TRAFFIC j < TRN_CFG 0 := by
    simp only [FAB_PORT_TRAFFIC, FAB_STATUS, TRN_CFG]
    omega
  simp [portSend, FAB_PORT_TRAFFIC_TX_FLITS, hreg]

@[simp] theorem quiet_fabRoute (k : Pkt) : (fabRoute k).Stays quietFoot := by
  simp only [fabRoute, Act.stays_dyn, Act.stays_ite, Act.stays_skip, Act.stays_eng]
  refine fun d => ⟨fun _ => trivial, fun _ => ⟨fun _ _ => trivial, fun _ => ?_⟩⟩
  split
  · exact quiet_portSend (choosePort_lt ‹_›) k
  · exact fun _ => rfl

@[simp] theorem quiet_fabSend (k : Pkt) (task : Nat) : (fabSend k task).Stays quietFoot := by simp [fabSend]
@[simp] theorem quiet_sendAck (k : Pkt) (refused : Bool) : (sendAck k refused).Stays quietFoot := by simp [sendAck]
@[simp] theorem quiet_setWin (w : Window) : (setWin w).Stays quietFoot := fun _ => rfl
@[simp] theorem quiet_relay (k : Pkt) : (relay k).Stays quietFoot := by simp [relay]
@[simp] theorem quiet_updFab (f : Fab → Fab) : (updFab f).Stays quietFoot := fun _ => rfl
@[simp] theorem quiet_refusePkt (k : Pkt) : (refusePkt k).Stays quietFoot := by simp [refusePkt]

@[simp] theorem quiet_holdPkt (port : Nat) (k : Pkt) : (holdPkt port k).Stays quietFoot := by
  simp [holdPkt, FAB_COUNT_C_HOLD_DROPS, FAB_COUNT_C, FAB_STATUS, TRN_CFG]

/-! ### Event rings -/

theorem quiet_putEntry {u : Nat} (hu : u ≤ ringMgr) (code arg : Nat) : (putEntry u code arg).Stays quietFoot := by
  have hmod (d : Dev) := Nat.mod_lt (d.fld (MON_RING_COUNT_WRITTEN u)) (y := 64) (by decide)
  simp only [ringMgr] at hu
  simp only [putEntry, Act.stays_dyn, Act.stays_all, List.forall_mem_cons, Act.stays_reg, Act.stays_add, MON_RING,
    MON_RING_COUNT_WRITTEN, MON_RING_COUNT, FAB_STATUS, TRN_CFG] at hmod ⊢
  exact fun d => have := hmod d; ⟨by omega, by omega, by omega, by simp⟩

@[simp] theorem quiet_ringEvent (u code arg : Nat) : (ringEvent u code arg).Stays quietFoot := by
  simp only [ringEvent, Act.stays_dyn, Act.stays_when, Bool.and_eq_true, decide_eq_true_eq]
  exact fun _ h => quiet_putEntry h.2 code arg

/-! ### Tasks that end -/

@[simp] theorem quiet_windowRefusal : windowRefusal.Stays quietFoot := by
  simp [windowRefusal, AXL_CONTAIN_COUNT_WINDOW, AXL_CONTAIN_COUNT, FAB_STATUS, TRN_CFG]

@[simp] theorem quiet_taskStopped (id status fkind : Nat) : (taskStopped id status fkind).Stays quietFoot := by
  simp only [taskStopped, Act.stays_dyn]
  intro d
  split <;> simp

@[simp] theorem quiet_updTask (id : Nat) (f : Task → Task) : (updTask id f).Stays quietFoot := fun _ => rfl
@[simp] theorem quiet_updQuire (n : Nat) (f : Quire → Quire) : (updQuire n f).Stays quietFoot := fun _ => rfl
@[simp] theorem quiet_updQuires (f : Nat → Quire → Quire) : (updQuires f).Stays quietFoot := fun _ => rfl
@[simp] theorem quiet_dropWaits (p : Nat → Nat → Bool) : (dropWaits p).Stays quietFoot := fun _ => rfl
@[simp] theorem quiet_stopTask (id : Nat) : (stopTask id).Stays quietFoot := by simp [stopTask]
@[simp] theorem quiet_endTask (num status fkind : Nat) : (endTask num status fkind).Stays quietFoot := by simp [endTask]

/-! ### The Axoft Link and snoops -/

@[simp] theorem quiet_axlSend (m : Msg) : (axlSend m).Stays quietFoot := by simp [axlSend]
@[simp] theorem quiet_axlReq (m : Msg) (why : ReqFor) (task : Nat) : (axlReq m why task).Stays quietFoot := by
  simp [axlReq]

@[simp] theorem quiet_dropHostLine (line : Nat) : (dropHostLine line).Stays quietFoot := fun _ => rfl

@[simp] theorem quiet_sendSnoop (r : Recall) : (sendSnoop r).Stays quietFoot := by
  simp only [sendSnoop, Act.stays_dyn]
  intro d
  split <;> simp

@[simp] theorem quiet_snoop (key : Nat) (share : Bool) : (snoop key share).Stays quietFoot := by
  simp only [snoop, Act.stays_dyn]
  intro d
  split <;> simp

theorem quiet_afterSnoop (ranges : List (Nat × Nat × Nat)) : (afterSnoop ranges .skip).Stays quietFoot := by
  simp [afterSnoop]

/-! ### Registers that no decision sets -/

@[simp] theorem after_mark (flag : Fld) : (Act.mark flag).Stays afterFoot ↔ ¬ decisionReg flag.reg := by simp [Act.mark]

@[simp] theorem after_raise (flag counter : Fld) :
    (Act.raise flag counter).Stays afterFoot ↔ ¬ decisionReg flag.reg ∧ ¬ decisionReg counter.reg := by simp [Act.raise]

/-- A register in an array of registers beyond those of a decision. -/
@[simp] theorem not_decisionReg_add (base i : Nat) (h : 0xF03000 ≤ base) : ¬ decisionReg (base + i) :=
  not_decisionReg_of_ge (Nat.le_add_right_of_le h)

@[simp] theorem not_decisionReg_add_add (base i j : Nat) (h : 0xF03000 ≤ base) : ¬ decisionReg (base + i + j) :=
  not_decisionReg_of_ge (Nat.le_add_right_of_le (Nat.le_add_right_of_le h))

/-- A register below FAB_STATUS. -/
@[simp] theorem not_decisionReg_low (o : Nat) (h : o < 0xD00000) : ¬ decisionReg o :=
  not_decisionReg_of_lt ⟨by simp only [FAB_STATUS]; omega, by simp only [TRN_CFG]; omega⟩

/-! ### Posted records -/

@[simp] theorem after_evtLost (n : Nat) : (evtLost n).Stays afterFoot := by
  simp [evtLost, AXL_EVT_LOST_COUNT, AXL_EVT_LOST]

@[simp] theorem after_queueError (p : Nat) : (queueError p).Stays afterFoot := by
  simp [queueError, PART_STATUS_QUEUE_ERROR, PART_STATUS, PART_ERROR_COUNT_ERRORS, PART_ERROR_COUNT]

@[simp] theorem after_updRing (q : Nat) (f : Ring → Ring) : (updRing q f).Stays afterFoot := fun _ => rfl

@[simp] theorem after_ringError (q code : Nat) : (ringError q code).Stays afterFoot := by
  simp only [ringError, Act.stays_dyn, Act.stays_all, List.forall_mem_cons, after_raise, Act.stays_set, QUE_STATUS_ERROR,
    QUE_STATUS_ERROR_COUNT, QUE_STATUS_ERROR_CODE, QUE_STATUS]
  refine fun d => ⟨by simp, by simp, ?_, by simp⟩
  split <;> simp

@[simp] theorem after_dropHeld (q : Nat) : (dropHeld q).Stays afterFoot := by
  simp [dropHeld, QUE_STATUS_HELD, QUE_STATUS]

@[simp] theorem after_ringWrite (q : Nat) (r : List Byte) : (ringWrite q r).Stays afterFoot := by
  simp [ringWrite, Act.Stays.after, QUE_CFG_ENABLE, QUE_CFG, QUE_TAIL_TAIL, QUE_TAIL, QUE_COUNT_ITEMS, QUE_COUNT]

@[simp] theorem after_post (q : Nat) (r : List Byte) : (post q r).Stays afterFoot := by
  simp [post, QUE_STATUS_HELD, QUE_STATUS]

/-! ### Fault records -/

theorem after_words64 {off : Nat} (h : off + 56 < 0xD00000) (bs : List Byte) : (words64 off bs).Stays afterFoot := by
  simp only [words64, Act.stays_each, Act.stays_reg, List.mem_range]
  exact fun i hi => not_decisionReg_low _ (by omega)

@[simp] theorem after_bootLog (bs : List Byte) : (bootLog bs).Stays afterFoot := by
  simp only [bootLog, Act.stays_dyn, Act.stays_ite, Act.stays_all, List.forall_mem_cons, Act.stays_set, Act.stays_count]
  refine fun d => ⟨fun hn => ⟨after_words64 ?_ bs, ?_⟩, fun _ => ?_⟩
  · simp only [CFG_BOOT_LOG]
    omega
  · simp [CFG_BOOT_LOG_COUNT_ENTRIES, CFG_BOOT_LOG_COUNT]
  · simp [CFG_BOOT_LOG_COUNT_LOST, CFG_BOOT_LOG_COUNT]

@[simp] theorem after_toOutbox (r : OutRec) : (toOutbox r).Stays afterFoot := by
  simp [toOutbox, RES_STATUS_OUTBOX_FULL, RES_STATUS, RES_COUNT_C_LOST, RES_COUNT_C]

@[simp] theorem quiet_recordPackets (bs : List Byte) : (recordPackets bs).Stays quietFoot := by
  simp only [recordPackets, Act.stays_dyn, Act.stays_ite, Act.stays_all, List.forall_mem_cons]
  refine fun d => ⟨fun _ => ⟨?_, ?_, by simp⟩, fun _ => by simp⟩ <;> split <;> simp

/-- The registers of the last 16 records. -/
@[simp] theorem after_recordWords (n : Nat) (bs : List Byte) : (words64 (RES_RECORD (n % 16) 0) bs).Stays afterFoot :=
  after_words64 (by simp only [RES_RECORD]; omega) bs

@[simp] theorem after_mayRecord {a : Act} (h : a.Stays afterFoot) : (mayRecord a).Stays afterFoot := by
  simp [mayRecord, h, (quiet_putEntry (show ringBoot ≤ ringMgr by decide) _ _).after]

@[simp] theorem after_faultRecord (f : Fault0) : (faultRecord f).Stays afterFoot := by
  have hraise : (Act.raise RES_STATUS_RECORD RES_COUNT_A_RECORDS).Stays afterFoot ∧
      (Act.raise RES_STATUS_RANK_FATAL RES_COUNT_A_RANK_FATAL).Stays afterFoot := by
    simp [RES_STATUS_RECORD, RES_STATUS_RANK_FATAL, RES_STATUS, RES_COUNT_A_RECORDS, RES_COUNT_A_RANK_FATAL, RES_COUNT_A]
  simp only [faultRecord, Act.stays_dyn, Act.stays_all, List.forall_mem_cons, Act.stays_ite, Act.stays_when]
  refine fun d => ⟨fun _ => rfl, by simp, by simp [Act.Stays.after], hraise.1, fun _ => hraise.2, by simp, by simp,
    by simp, ⟨by simp, fun _ => ⟨by simp [Act.Stays.after], by simp, ⟨fun _ => ?_, by simp⟩, by simp⟩⟩, by simp⟩
  split <;> simp

@[simp] theorem after_report (kind part unit : Nat) (detail : List Byte) :
    (report kind part unit detail).Stays afterFoot := by
  simp [report]

/-! ### Frozen images and fences -/

@[simp] theorem after_snapState (n : Nat) : (snapState n).Stays afterFoot := by
  simp [snapState, Act.Stays.after, RES_SNAP_STATUS_STATE, RES_SNAP_STATUS]

@[simp] theorem after_fillState (n : Nat) : (fillState n).Stays afterFoot := by
  simp [fillState, Act.Stays.after, RES_FILL_STATUS_STATE, RES_FILL_STATUS]

@[simp] theorem after_snapshotFails (error : Nat) : (snapshotFails error).Stays afterFoot := by
  simp [snapshotFails, RES_SNAP_STATUS_ERROR, RES_SNAP_STATUS]

@[simp] theorem after_abandonFrozen (p : Nat) : (abandonFrozen p).Stays afterFoot := by
  simp only [abandonFrozen, Act.stays_dyn]
  intro d
  split <;> simp [CFG_VERSION_CTRL_ABANDONS, CFG_VERSION_CTRL]

@[simp] theorem after_preserve (p g : Nat) : (preserve p g).Stays afterFoot := by simp [preserve]

@[simp] theorem after_fence (u : Nat) : (fence u).Stays afterFoot := by
  simp [fence, Act.Stays.after, PWR_BOOT_STATUS_FENCED, PWR_BOOT_STATUS, RES_COUNT_B_FENCES, RES_COUNT_B]

@[simp] theorem after_fenceChan (c kind : Nat) : (fenceChan c kind).Stays afterFoot := by
  simp only [fenceChan, endTasks, Act.stays_dyn, Act.stays_ite, Act.stays_all, List.forall_mem_cons, Act.stays_each]
  refine fun d => ⟨by simp, fun _ => ⟨by simp [Act.Stays.after], by simp, fun d => ?_, by simp⟩⟩
  split <;> simp

/-! ### Writes of device memory -/

@[simp] theorem after_mirrorPump (p g target dest : Nat) : (mirrorPump p g target dest).Stays afterFoot := by
  simp only [mirrorPump, Act.stays_dyn, Act.stays_ite, Act.stays_skip]
  refine fun d => ⟨fun _ => trivial, fun _ => ?_⟩
  split <;> simp [Act.Stays.after]

@[simp] theorem after_mirrorLines (p g mask : Nat) (view : Option Nat) (task : Nat) :
    (mirrorLines p g mask view task).Stays afterFoot := by
  simp only [mirrorLines, Act.stays_dyn]
  intro d
  split <;> simp

@[simp] theorem after_bytes (key : Nat) (bs : List Byte) : (Act.bytes key bs).Stays afterFoot := by simp [Act.bytes]
@[simp] theorem after_setPoison (p o : Nat) (b : Bool) : (setPoison p o b).Stays afterFoot := fun _ => rfl
@[simp] theorem after_freshen (p o : Nat) : (freshen p o).Stays afterFoot := by simp [freshen]

@[simp] theorem after_commitLine (p o : Nat) (bs : List Byte) (poison : Bool) (origin : Origin) (task : Nat) :
    (commitLine p o bs poison origin task).Stays afterFoot := by
  simp [commitLine, DUN_ECC_COUNT_POISONED, DUN_ECC_COUNT, DUN_TRAFFIC_WRITE_LINES, DUN_TRAFFIC]

@[simp] theorem after_versionLine (p e o : Nat) (bs : List Byte) (poison mirrored : Bool) (task : Nat) :
    (versionLine p e o bs poison mirrored task).Stays afterFoot := by
  simp [versionLine, Act.Stays.after, DUN_ECC_COUNT_POISONED, DUN_ECC_COUNT, DUN_TRAFFIC_WRITE_LINES, DUN_TRAFFIC,
    TRN_PROOF_VERSION_FULL, TRN_PROOF_VERSION_GRANULES, TRN_PROOF_VERSION]

@[simp] theorem after_lineWriteFrom (origin : Origin) (p : Nat) (view : Option Nat) (o : Nat) (bs : List Byte)
    (poison : Bool) (task : Nat) : (lineWriteFrom origin p view o bs poison task).Stays afterFoot := by
  cases view <;> simp [lineWriteFrom, lineWriteAfter, waitHome, Act.Stays.after]

@[simp] theorem after_lineWrite (p : Nat) (view : Option Nat) (o : Nat) (bs : List Byte) (poison : Bool) (task : Nat) :
    (lineWrite p view o bs poison task).Stays afterFoot := after_lineWriteFrom _ _ _ _ _ _ _

@[simp] theorem after_memWrite (p : Nat) (view : Option Nat) (o : Nat) (bs : List Byte) (poison : Bool) (task : Nat) :
    (memWrite p view o bs poison task).Stays afterFoot := by simp [memWrite]

/-! ### Tallies -/

@[simp] theorem after_wakeTally (t : Nat) : (wakeTally t).Stays afterFoot := by
  simp only [wakeTally, Act.stays_dyn]
  intro d
  split <;> simp [Act.Stays.after, QUE_STATUS_BLOCKED, QUE_STATUS]

@[simp] theorem after_fireTally (t : Nat) : (fireTally t).Stays afterFoot := by
  simp only [fireTally, Act.stays_dyn, Act.stays_ite, Act.stays_skip]
  refine fun d => ⟨fun _ => ?_, fun _ => trivial⟩
  split
  · simp
  · split <;> simp [TLY_EVENT_ARM, TLY_EVENT]

@[simp] theorem after_tallyAdd (t addend : Nat) : (tallyAdd t addend).Stays afterFoot := by
  simp [tallyAdd, tallyUpdated, TLY_VALUE_VALUE, TLY_VALUE, TLY_COUNT_UPDATES, TLY_COUNT]

/-! ### Steps 2 to 4 of an installation (R426) -/

/-- A register of the training block beside TRN_LS and TRN_STEP. -/
@[simp] theorem not_decisionReg_training (base p : Nat) (hbase : 0xD00000 < base) (hls : base % 0x80 ≠ 0x08)
    (hstep : base % 0x80 ≠ 0x10) : ¬ decisionReg (base + p * 0x80) := by
  simp only [decisionReg, FAB_STATUS, TRN_LS, TRN_STEP, not_or, not_exists, not_and]
  exact ⟨by omega, fun i _ => by omega⟩

@[simp] theorem after_decisionEffects (p decision : Nat) : (decisionEffects p decision).Stays afterFoot := by
  simp [decisionEffects, TRN_COUNT_A_COMMITS, TRN_COUNT_A_NONFINITE, TRN_COUNT_A, TRN_STATUS_NONFINITE,
    TRN_STATUS_LS_FLOOR, TRN_STATUS, TRN_COUNT_B_LATE_REPEATS, TRN_COUNT_B_FLOORS, TRN_COUNT_B, PART_CTRL_STOP, PART_CTRL]

@[simp] theorem after_writeRecord (p decision step attempt : Nat) :
    (writeRecord p decision step attempt).Stays afterFoot := by
  simp [writeRecord, TRN_STATUS_RECORD_FAULT, TRN_STATUS, TRN_COUNT_C_RECORD_FAULTS, TRN_COUNT_C]

@[simp] theorem after_decisionTally (p : Nat) : (decisionTally p).Stays afterFoot := by
  simp only [decisionTally, Act.stays_dyn, Act.stays_ite, Act.stays_skip]
  refine fun d => ⟨fun _ => trivial, fun _ => ?_⟩
  split <;> simp

/-! ### What follows an installation -/

@[simp] theorem quiet_dropToPartner (kind : Nat) : (dropToPartner kind).Stays quietFoot := by simp [dropToPartner]

@[simp] theorem after_followPartner : followPartner.Stays afterFoot := by
  simp [followPartner, suspendMirrors, updResil, Act.Stays.after, RES_STATUS_MIRROR_SUSPENDED, RES_STATUS,
    RES_COUNT_C_SUPPRESSED, RES_COUNT_C]

@[simp] theorem quiet_dropPeers : dropPeers.Stays quietFoot := by simp [dropPeers]
@[simp] theorem quiet_redirectGathers (p : Nat) : (redirectGathers p).Stays quietFoot := by simp [redirectGathers]
@[simp] theorem after_freeze (p : Nat) : (freeze p).Stays afterFoot := by simp [freeze]
@[simp] theorem quiet_wakeProofs (opened : Nat) : (wakeProofs opened).Stays quietFoot := by
  simp [wakeProofs, updCaravan]

/-! ### Reduction packets that waited (R512) -/

@[simp] theorem quiet_redReply (p : Nat) (k : Pkt) (code : Nat) : (redReply p k code).Stays quietFoot := by
  simp [redReply]

@[simp] theorem after_entryFails (p : Nat) (h : List Byte) : (entryFails p h).Stays afterFoot := by
  simp [entryFails, checkFail, RED_STATUS_CHECK_FAIL, RED_STATUS, RED_COUNT_D_CHECK_FAILS, RED_COUNT_D]

@[simp] theorem after_combineFails (p tile o : Nat) (detail : List Byte) :
    (combineFails p tile o detail).Stays afterFoot := by
  simp [combineFails, updRed, checkFail, RED_STATUS_CHECK_FAIL, RED_STATUS, RED_COUNT_D_CHECK_FAILS, RED_COUNT_D]

@[simp] theorem after_noteTree (p tile slot : Nat) (complete : Bool) (tally : Nat) :
    (noteTree p tile slot complete tally).Stays afterFoot := by simp [noteTree, updRed]

@[simp] theorem after_applyLeaf (p : Nat) (k : Pkt) (slot : Nat) : (applyLeaf p k slot).Stays afterFoot := by
  simp only [applyLeaf, Act.stays_dyn, Act.stays_ite]
  refine fun d => ⟨fun _ => by simp [Act.Stays.after], fun _ => ⟨fun _ => ?_, fun _ => ?_⟩⟩
  · simp [Act.Stays.after, RED_COUNT_A_ACCEPTED, RED_COUNT_A]
  · split <;> simp [Act.Stays.after, RED_COUNT_A_ACCEPTED, RED_COUNT_A]

@[simp] theorem after_redCurrent (p : Nat) (k : Pkt) : (redCurrent p k).Stays afterFoot := by
  simp [redCurrent, updRed, Act.Stays.after, RED_COUNT_D_REFUSED, RED_COUNT_D, RED_COUNT_B_EARLY, RED_COUNT_B,
    RED_STATUS_AREA_FAULT, RED_STATUS, RED_COUNT_E_AREA_FAULTS, RED_COUNT_E, RED_COUNT_A_DUPLICATE, RED_COUNT_A]

@[simp] theorem after_redArrived (port p : Nat) (k : Pkt) : (redArrived port p k).Stays afterFoot := by
  simp [redArrived, Act.Stays.after, RED_COUNT_B_STALE, RED_COUNT_B]

/-! ### Other packets that waited (R462) -/

/-- What a handler does keeps to the footprint. -/
def Handler.After (h : Handler) : Prop := ∀ p view k d, (h p view k d).1.Stays afterFoot

theorem after_writing (p : Nat) (view : Option Nat) (o n : Nat) (d : Dev) (ok : Bool) {a : Act} (h : a.Stays afterFoot) :
    (writing p view o n d ok a).1.Stays afterFoot := by
  unfold writing
  split
  · simp
  · split
    · simp [TRN_PROOF_VERSION_FULL, TRN_PROOF_VERSION]
    · exact h

@[simp] theorem after_doorbell (q tail : Nat) : (doorbell q tail).Stays afterFoot := by
  have htail : ¬ decisionReg (QUE_TAIL_TAIL q).reg := by simp [QUE_TAIL_TAIL, QUE_TAIL]
  simp only [doorbell, onQueue, Act.stays_dyn]
  intro d
  split
  · simp only [Act.stays_when, Act.stays_dyn, Act.stays_ite, Act.stays_skip, Act.stays_set, after_ringError, htail,
      implies_true, and_self, not_false_eq_true]
  · exact Act.stays_skip

theorem after_takeTallyAdd : Handler.After takeTallyAdd := by
  intro p view k d
  unfold takeTallyAdd
  split <;> simp

theorem after_takeDoorbell : Handler.After takeDoorbell := by
  intro p view k d
  unfold takeDoorbell
  split <;> simp

theorem Handler.After.ite (c : Prop) {_ : Decidable c} {h h' : Handler} (hthen : h.After) (helse : h'.After) :
    Handler.After (if c then h else h') := by
  split
  · exact hthen
  · exact helse

theorem after_handlerOf (kind : Nat) : (handlerOf kind).After := by
  have hwrite : Handler.After takeWrite := fun _ _ _ _ => after_writing _ _ _ _ _ _ (by simp)
  have haccumulate : Handler.After takeAccumulate := fun _ _ _ _ => after_writing _ _ _ _ _ _ (by simp)
  have hmirror : Handler.After takeMirror := fun _ _ _ _ => after_writing _ _ _ _ _ _ (by simp)
  have hfill : Handler.After takeFillData := fun _ _ _ _ => after_writing _ _ _ _ _ _ (by simp)
  exact hwrite.ite _ <| haccumulate.ite _ <| hmirror.ite _ <| hfill.ite _ <| after_takeTallyAdd.ite _ <|
    after_takeDoorbell.ite _ fun _ _ _ _ => trivial

theorem after_carry {h : Handler} (hh : h.After) (p : Nat) (view : Option Nat) (k : Pkt) :
    (carry h p view k).Stays afterFoot := by
  simp [carry, hh p view k, Act.Stays.after]

theorem after_byEpoch {h : Handler} (hh : h.After) (port p : Nat) (k : Pkt) {enter : Act}
    (henter : enter.Stays quietFoot) : (byEpoch port h p k enter).Stays afterFoot := by
  simp only [byEpoch, Act.stays_dyn]
  intro d
  split <;> simp [after_carry hh, henter, Act.Stays.after, TRN_PROOF_DROP_STALE, TRN_PROOF_DROP]

theorem after_inWindow {h : Handler} {p : Nat} {k : Pkt} {go : Act → Act}
    (hgo : ∀ enter : Act, enter.Stays quietFoot → (go enter).Stays afterFoot) : (inWindow h p k go).Stays afterFoot := by
  have hcounts : ¬ decisionReg FAB_COUNT_C ∧ ¬ decisionReg FAB_COUNT_B :=
    ⟨not_decisionReg_of_lt (by decide), not_decisionReg_of_lt (by decide)⟩
  simp [inWindow, hgo, Act.Stays.after, FAB_COUNT_C_OLD_INCARNATION, FAB_COUNT_B_DUPLICATES, hcounts]

theorem after_accept {h : Handler} (hh : h.After) (port p : Nat) (k : Pkt) : (accept port h p k).Stays afterFoot := by
  dsimp only [accept]
  split
  · exact after_inWindow fun enter => after_byEpoch hh port p _
  · exact after_byEpoch hh port p _ Act.stays_skip

@[simp] theorem after_redeliver (p : Nat) (h : HoldPkt) : (redeliver p h).Stays afterFoot := by
  simp [redeliver, after_accept (after_handlerOf _), Act.Stays.after, quiet_afterSnoop]

@[simp] theorem after_redeliverHeld (p : Nat) : (redeliverHeld p).Stays afterFoot := by
  simp [redeliverHeld, Act.Stays.after]

end Sys2Proof.Machine
end

section
/-! A rank follows its manager (13, 16, 17): DECISION, SENDS_CLOSED and HALT (R426, R427, R519, R560, R561). -/

namespace Sys2Proof.Machine

/-! ### A packet that reaches its partition (R537, R545, R546) -/

section
variable {d : Dev} {port p : Nat} {k : Pkt}

/-- A packet that reaches a partition is handed to it (R537). -/
theorem run_arrive (h : Arrives d port k p) (go : (p : Nat) → Act) :
    (arrive port k (fun _ => []) go).run d = (go p).run d := by
  obtain ⟨hlt, hup⟩ := h.link
  have hself : port ≠ 32 := by omega
  have hout : ¬ 32 < port := by omega
  have hreset := h.notReset
  obtain ⟨hslot, hranks, hdest, hpart⟩ | ⟨hslot, hport, hsrc, hdest, hpart, hsrcPart, haccept⟩ := h.here
  · simp [arrive, afterSnoop, hself, hout, hup, hslot, hranks, hdest, hpart, hreset]
  · simp [arrive, afterSnoop, hself, hout, hup, hslot, Nat.not_lt.mpr hport, hsrc, hdest, hpart, hsrcPart, haccept,
      hreset]

theorem newerInc_self (a : Nat) : newerInc a a = false := by
  have h : (a + 65536 - a % 65536) % 65536 = 0 := by omega
  simp [newerInc, h]

/-- A packet that is neither old nor a duplicate is entered in its source's window and goes on (R545, R546). -/
theorem run_inWindow (h : Handler)
    (hfresh : ∀ w, d.winOf p k = some w → w.incarnation = k.incarnation ∧ w.isDup k.seq = false)
    (go : Act → Act) : ∃ w w', (inWindow h p k go).run d = (go (setWin w')).run ((setWin w).run d) := by
  have hwin : ((d.winOf p k).getD (emptyWin p k)).incarnation = k.incarnation ∧
      ((d.winOf p k).getD (emptyWin p k)).isDup k.seq = false := by
    cases hw : d.winOf p k with
    | none => simp [emptyWin, Window.isDup]
    | some w => exact hfresh w hw
  obtain ⟨hinc, hdup⟩ := hwin
  refine ⟨(d.winOf p k).getD (emptyWin p k), ((d.winOf p k).getD (emptyWin p k)).enter k.seq, ?_⟩
  simp [inWindow, hinc, newerInc_self, hdup]

/-- A packet without an epoch acts on committed memory (R462). -/
theorem run_byEpoch (h : Handler) (hepoch : k.epoch = 0) (enter : Act) :
    (byEpoch port h p k enter).run d = (carry h p none k).run (enter.run d) := by
  simp [byEpoch, Dev.epochClass, hepoch]

theorem epochOf_of_no_epoch (h : k.epoch = 0) : epochOf k = k := by
  cases k
  simp_all [epochOf]

/-- A windowed packet that reaches its partition is entered in its window and carried out. -/
theorem run_arrival {kind : Nat} (h : Arrives d port { k with kind := kind } p) (hwin : windowed kind = true)
    (hd : Handler) : ∃ enter : Act, enter.Stays quietFoot ∧
      (arrival kind port k hd).run d = (carry hd p none { k with kind := kind }).run (enter.run d) := by
  obtain ⟨w, w', hrun⟩ := run_inWindow hd (h.fresh hwin) fun enter => byEpoch port hd p { k with kind := kind } enter
  refine ⟨.seq (setWin w) (setWin w'), by simp, ?_⟩
  simp only [arrival, run_arrive h, accept, epochOf_of_no_epoch h.noEpoch, hwin, if_true, hrun,
    run_byEpoch hd h.noEpoch, Act.run_seq]

/-- A broadcast that reaches a rank takes effect there; the packet's window, the relay and the acknowledgement stay away
from training, memory and reduction. -/
theorem run_broadcast {kind : Nat} (h : Arrives d port { k with kind := kind } p) (hwin : windowed kind = true) :
    ∃ pre ack : Act, pre.Stays quietFoot ∧ ack.Stays quietFoot ∧
      (arrival kind port k takeBroadcast).run d =
        ack.run ((broadcastHere p { k with kind := kind }).run (pre.run d)) := by
  obtain ⟨enter, henter, hrun⟩ := run_arrival h hwin takeBroadcast
  refine ⟨.seq enter (relay { k with kind := kind }), sendAck { k with kind := kind } false, by simp [henter],
    by simp, ?_⟩
  simp [hrun, carry, takeBroadcast, hwin]

end

/-! ### An installed decision at its rank (R426, R560) -/

theorem leNat_lt (b : List Byte) : leNat b < 256 ^ b.length := by
  induction b with
  | nil => simp [leNat]
  | cons x t ih =>
    have hx : x.toNat < 256 := x.isLt
    simp only [leNat, List.length_cons, Nat.pow_succ]
    omega

theorem leAt_lt (b : List Byte) (off n : Nat) : leAt b off n < 256 ^ n :=
  Nat.lt_of_lt_of_le (leNat_lt _) (Nat.pow_le_pow_right (by decide) (List.length_take_le n _))

section
variable {d : Dev} {p : Nat} {b : List Byte}

theorem decisionReg_training (hp : p < 64) : decisionReg (TRN_STEP p) ∧ decisionReg (TRN_LS p) :=
  ⟨.inr ⟨p, hp, .inr rfl⟩, .inr ⟨p, hp, .inl rfl⟩⟩

/-- STEP, ATTEMPT, EXP and CLEAN of a partition are those that a decision carries. -/
structure Carries (e : Dev) (p : Nat) (b : List Byte) : Prop where
  step : e.fld (TRN_STEP_STEP p) = dcNextStep b
  attempt : e.fld (TRN_STEP_ATTEMPT p) = dcNextAttempt b
  exp : e.fld (TRN_LS_EXP p) = dcExp b % 64
  clean : e.fld (TRN_LS_CLEAN p) = dcClean b

/-- They stay so while TRN_STEP and TRN_LS do. -/
theorem Carries.of_reg {e : Dev} (h : Carries d p b)
    (hreg : ∀ o, decisionReg o → o ≠ FAB_STATUS → e.reg o = d.reg o) (hp : p < 64) : Carries e p b := by
  have hstep : e.reg (TRN_STEP p) = d.reg (TRN_STEP p) :=
    hreg _ (decisionReg_training hp).1 (by simp only [TRN_STEP, FAB_STATUS]; omega)
  have hls : e.reg (TRN_LS p) = d.reg (TRN_LS p) :=
    hreg _ (decisionReg_training hp).2 (by simp only [TRN_LS, FAB_STATUS]; omega)
  obtain ⟨h1, h2, h3, h4⟩ := h
  simp only [Dev.fld, TRN_STEP_STEP, TRN_STEP_ATTEMPT, TRN_LS_EXP, TRN_LS_CLEAN] at h1 h2 h3 h4
  constructor <;> simpa only [Dev.fld, TRN_STEP_STEP, TRN_STEP_ATTEMPT, TRN_LS_EXP, TRN_LS_CLEAN, hstep, hls]

/-- Step 2 of R426 gives TRN_STEP and TRN_LS the values that the decision carries. -/
theorem carries_installValues (hp : p < 64) (d : Dev) : Carries ((installValues p b).run d) p b := by
  have hapart : TRN_LS p ≠ TRN_STEP p := by simp only [TRN_LS, TRN_STEP]; omega
  have hvalues : Carries ((Act.all [Act.set (TRN_STEP_STEP p) (dcNextStep b),
      Act.set (TRN_STEP_ATTEMPT p) (dcNextAttempt b), Act.set (TRN_LS_EXP p) (dcExp b),
      Act.set (TRN_LS_CLEAN p) (dcClean b)]).run d) p b := by
    simp only [Act.run_all_cons, Act.run_all_nil]
    constructor
    · rw [Act.run_set_other _ _ _ _ (.inl hapart), Act.run_set_other _ _ _ _ (.inl hapart),
        Act.run_set_other _ _ _ _ (.inr (.inl (by simp [TRN_STEP_STEP, TRN_STEP_ATTEMPT]))),
        Act.run_set_same _ _ _ (by simp [TRN_STEP_STEP])]
      exact Nat.mod_eq_of_lt (leAt_lt b 8 4)
    · rw [Act.run_set_other _ _ _ _ (.inl hapart), Act.run_set_other _ _ _ _ (.inl hapart),
        Act.run_set_same _ _ _ (by simp [TRN_STEP_ATTEMPT])]
      exact Nat.mod_eq_of_lt (leAt_lt b 12 2)
    · rw [Act.run_set_other _ _ _ _ (.inr (.inl (by simp [TRN_LS_EXP, TRN_LS_CLEAN]))),
        Act.run_set_same _ _ _ (by simp [TRN_LS_EXP])]
      rfl
    · rw [Act.run_set_same _ _ _ (by simp [TRN_LS_CLEAN])]
      exact Nat.mod_eq_of_lt (leAt_lt b 16 4)
  exact hvalues.of_reg (fun o ho _ => (after_decisionEffects p (dcKind b)).reg _ (not_not_intro ho)) hp

/-- The opening of an attempt changes the drop set, and no register that the decision has set. -/
abbrev attemptFoot : Foot Unit where
  regs o := ¬ decisionReg o
  mem := True
  eng _ := ()

theorem stays_openAttempt : (openAttempt p b).Stays attemptFoot := by
  simp [openAttempt, freeSend, updRed, updQuire, RED_COUNT_B_STALE, RED_COUNT_B, RED_STATUS_POOL_WAIT, RED_STATUS]

theorem run_openAttempt_drop (d : Dev) : ((openAttempt p b).run d).eng.red.drop = dcDrops b := by
  simp [openAttempt, updRed]

/-- An installed decision as R426 orders it: the values, what is written for them, the attempt that opens, what follows
the drop set, JOINED, and the work that goes on. -/
theorem run_installDecision (hinst : d.installs p b = true) : ∃ pre records follow rest : Act,
    records.Stays afterFoot ∧ follow.Stays afterFoot ∧ rest.Stays afterFoot ∧
    (installDecision p b).run d = rest.run ((Act.set FAB_STATUS_JOINED 1).run (follow.run ((openAttempt p b).run
      (records.run ((installValues p b).run (pre.run d)))))) := by
  refine ⟨.seq (ringEvent ringMgr evDecision (dcNextStep b + 2 ^ 32 * dcKind b)) (installEpoch p b),
    .seq (writeRecord p (dcKind b) (dcStep b) (dcAttempt b)) (decisionTally p),
    .all [followPartner, dropPeers, redirectGathers p,
      Act.when (d.fld RES_SNAP_STATUS_STATE == 1 && decide (d.eng.resil.armed < dcNextStep b)) (freeze p)],
    .seq (wakeProofs (dcOpened b)) (redeliverHeld p), by simp, by simp [Act.Stays.after], by simp [Act.Stays.after], ?_⟩
  simp only [installDecision, Act.run_dyn, hinst, Bool.not_true, Bool.false_eq_true, if_false, Act.run_all_cons,
    Act.run_all_nil, Act.run_seq]

/-- What an installed decision leaves at its rank. -/
theorem installDecision_installs (hp : p < 64) (hinst : d.installs p b = true) :
    Carries ((installDecision p b).run d) p b ∧ ((installDecision p b).run d).eng.red.drop = dcDrops b ∧
      ((installDecision p b).run d).fld FAB_STATUS_JOINED = 1 := by
  obtain ⟨pre, records, follow, rest, hrecords, hfollow, hrest, hrun⟩ := run_installDecision hinst
  rw [hrun]
  refine ⟨(carries_installValues hp (pre.run d)).of_reg (fun o ho hne => ?_) hp, ?_, ?_⟩
  · rw [hrest.reg _ (not_not_intro ho), Act.run_set_reg_other _ _ _ _ hne.symm, hfollow.reg _ (not_not_intro ho),
      stays_openAttempt.reg _ (not_not_intro ho), hrecords.reg _ (not_not_intro ho)]
  · exact (hrest.eng _).trans ((hfollow.eng _).trans
      (run_openAttempt_drop (p := p) (records.run ((installValues p b).run (pre.run d)))))
  · rw [hrest.fld _ (not_not_intro (.inl rfl)), Act.run_set_same _ _ _ (by decide)]
    rfl

end

section
variable {d : Dev} {p : Nat} {b : List Byte} {a : Act}

/-! ### The tag and the installation through acts that stay away from training -/

theorem quietFoot_not_regs {o : Nat} (h : TRN_CFG 0 ≤ o) : ¬ quietFoot.regs o :=
  fun hregs => absurd hregs.2 (Nat.not_lt.mpr h)

theorem tag_of_quiet (h : a.Stays quietFoot) (p : Nat) (d : Dev) : (a.run d).tag p = d.tag p := by
  have hstep : ¬ quietFoot.regs (TRN_STEP p) := quietFoot_not_regs (by simp only [TRN_CFG, TRN_STEP]; omega)
  rw [Dev.tag, h.fld d hstep, h.fld d hstep, Dev.tag]

theorem installs_of_quiet (h : a.Stays quietFoot) (p : Nat) (b : List Byte) (d : Dev) :
    (a.run d).installs p b = d.installs p b := by
  have hred : (a.run d).eng.red = d.eng.red := h.eng d
  simp only [Dev.installs, hred, tag_of_quiet h]

theorem sameMem_of_mem {d e : Dev} (h : e.mem = d.mem) : SameMem d e := fun k => by rw [Dev.byte, h, Dev.byte]

/-! ### HALT (R561) -/

/-- What follows the freeing of a partition's slot 0 by a discard: other registers, and no memory. -/
abbrev slotFoot (p : Nat) : Foot Unit where
  regs o := o ≠ TRN_PROOF_SLOT p 0
  mem := False
  eng _ := ()

theorem stays_slot_endTask (num status fkind : Nat) : (endTask num status fkind).Stays (slotFoot p) :=
  (quiet_endTask num status fkind).mono
    (fun o ho => by simp only [TRN_CFG] at ho; simp only [TRN_PROOF_SLOT]; omega) id fun _ _ _ => rfl

/-- A discard frees the epoch's slot first (R448). -/
theorem run_discardEpoch {e : Nat} (h : d.epochSlot p e = some 0) : ∃ rest : Act, rest.Stays (slotFoot p) ∧
    (discardEpoch p e).run d =
      rest.run ((Act.set (TRN_PROOF_SLOT_EPOCH p 0) 0).run ((Act.set (TRN_PROOF_SLOT_VALID p 0) 0).run d)) := by
  have hregs : TRN_PROOF_VERSION p ≠ TRN_PROOF_SLOT p 0 ∧ TRN_PROOF_COUNT p ≠ TRN_PROOF_SLOT p 0 := by
    simp only [TRN_PROOF_VERSION, TRN_PROOF_COUNT, TRN_PROOF_SLOT]
    omega
  simp only [discardEpoch, Act.run_dyn, h]
  rw [Act.run_all_cons, Act.run_all_cons]
  refine ⟨_, ?_, rfl⟩
  simp [stays_slot_endTask, dropVersions, TRN_PROOF_VERSION_GRANULES, TRN_PROOF_COUNT_DISCARDS, hregs]

/-- HALT leaves memory alone, and no epoch stands open in slot 0. -/
theorem run_haltRank (p : Nat) (d : Dev) : ((haltRank p).run d).mem = d.mem ∧
    ((haltRank p).run d).fld (PART_CTRL_STOP p) = 1 ∧ ((haltRank p).run d).fld (TRN_PROOF_SLOT_VALID p 0) = 0 := by
  have hctrl : PART_CTRL p ≠ TRN_PROOF_SLOT p 0 := by simp only [PART_CTRL, TRN_PROOF_SLOT]; omega
  have hstop (e : Dev) : ((Act.set (PART_CTRL_STOP p) 1).run e).fld (PART_CTRL_STOP p) = 1 :=
    Act.run_set_same _ _ _ (by simp [PART_CTRL_STOP])
  have hkeep (e : Dev) : ((Act.set (PART_CTRL_STOP p) 1).run e).fld (TRN_PROOF_SLOT_VALID p 0) =
      e.fld (TRN_PROOF_SLOT_VALID p 0) := Act.run_set_other _ _ _ _ (.inl hctrl)
  simp only [haltRank, Act.run_dyn, Act.run_all_cons, Act.run_all_nil, Act.run_set_mem, hstop, hkeep, true_and]
  cases hvalid : d.flag (TRN_PROOF_SLOT_VALID p 0) with
  | false => exact ⟨rfl, by simpa [Dev.flag] using hvalid⟩
  | true =>
    have hslot : d.epochSlot p (d.fld (TRN_PROOF_SLOT_EPOCH p 0)) = some 0 := by simp [Dev.epochSlot, hvalid]
    obtain ⟨rest, hrest, hrun⟩ := run_discardEpoch hslot
    rw [Act.when_true, hrun]
    refine ⟨hrest.mem _ id, (hrest.fld _ (not_not_intro rfl)).trans ?_⟩
    rw [Act.run_set_other _ _ _ _ (.inr (.inr (by simp [TRN_PROOF_SLOT_EPOCH, TRN_PROOF_SLOT_VALID]))),
      Act.run_set_same _ _ _ (by simp [TRN_PROOF_SLOT_VALID])]
    rfl

end

/-! ### The commands -/

section
variable {s : State} {port p : Nat} {k : Pkt}

/-- A decision for the current attempt. -/
theorem does_decision_installed (h : Arrives s.d port { k with kind := pkDecision } p)
    (hinst : s.d.installs p k.data = true) :
    Does (.decision port k) s fun e =>
      e.fld (TRN_STEP_STEP p) = dcNextStep k.data ∧ e.fld (TRN_STEP_ATTEMPT p) = dcNextAttempt k.data ∧
      e.fld (TRN_LS_EXP p) = dcExp k.data % 64 ∧ e.fld (TRN_LS_CLEAN p) = dcClean k.data ∧
      e.eng.red.drop = dcDrops k.data ∧ e.flag FAB_STATUS_JOINED = true := by
  refine does_of_run rfl h.alive ?_
  obtain ⟨pre, ack, hpre, hack, hrun⟩ := run_broadcast h rfl
  obtain ⟨hvalues, hdrop, hjoined⟩ := installDecision_installs h.part ((installs_of_quiet hpre p k.data s.d).trans hinst)
  obtain ⟨hstep, hattempt, hexp, hclean⟩ :=
    hvalues.of_reg (fun o ho _ => hack.after.reg _ (not_not_intro ho)) h.part
  rw [actDecision, hrun]
  refine ⟨hstep, hattempt, hexp, hclean, (hack.after.eng _).trans hdrop, ?_⟩
  have hone := (hack.after.fld ((installDecision p k.data).run (pre.run s.d)) (f := FAB_STATUS_JOINED)
    (not_not_intro (.inl rfl))).trans hjoined
  exact bne_iff_ne.mpr fun hzero => Nat.one_ne_zero (hone.symm.trans hzero)

/-- A decision for another attempt (R427). -/
theorem does_decision_stale (h : Arrives s.d port { k with kind := pkDecision } p)
    (hinst : s.d.installs p k.data = false) :
    Does (.decision port k) s fun e => SameMem s.d e ∧
      e.fld (TRN_COUNT_C_STALE p) = (s.d.fld (TRN_COUNT_C_STALE p) + 1) % 2 ^ 32 ∧
      s.d.tag p = e.tag p ∧ e.eng.red = s.d.eng.red := by
  refine does_of_run rfl h.alive ?_
  obtain ⟨pre, ack, hpre, hack, hrun⟩ := run_broadcast h rfl
  have hstale : (broadcastHere p { k with kind := pkDecision }).run (pre.run s.d) =
      (Act.add (TRN_COUNT_C_STALE p) 1).run (pre.run s.d) := by
    simp [broadcastHere, installDecision, installs_of_quiet hpre, hinst]
  have hcount : TRN_CFG 0 ≤ TRN_COUNT_C p ∧ TRN_COUNT_C p ≠ TRN_STEP p := by
    simp only [TRN_CFG, TRN_COUNT_C, TRN_STEP]
    omega
  have hout : ¬ quietFoot.regs (TRN_COUNT_C_STALE p).reg := quietFoot_not_regs hcount.1
  rw [actDecision, hrun, hstale]
  refine ⟨sameMem_of_mem ((hack.mem _ id).trans (hpre.mem _ id)), ?_, ?_, (hack.eng _).trans (hpre.eng _)⟩
  · rw [hack.fld _ hout, Act.add, Act.run_dyn, Act.run_set_same _ _ _ (by simp [TRN_COUNT_C_STALE]), hpre.fld _ hout]
    rfl
  · rw [tag_of_quiet hack, Act.add, Act.run_dyn, Dev.tag, Dev.tag, Act.run_set_other _ _ _ _ (.inl hcount.2),
      Act.run_set_other _ _ _ _ (.inl hcount.2)]
    exact (tag_of_quiet hpre p s.d).symm

/-- SENDS_CLOSED of the current attempt (R519). -/
theorem does_sendsClosed (h : Arrives s.d port { k with kind := pkSendsClosed } p)
    (htag : (leAt k.data 0 4, leAt k.data 4 2) = s.d.tag p) :
    Does (.sendsClosed port k) s fun e => SameMem s.d e ∧ e.eng.red = { s.d.eng.red with closed := true } := by
  refine does_of_run rfl h.alive ?_
  obtain ⟨pre, ack, hpre, hack, hrun⟩ := run_broadcast h rfl
  have hclosed : (broadcastHere p { k with kind := pkSendsClosed }).run (pre.run s.d) =
      (updRed fun r => { r with closed := true }).run (pre.run s.d) := by
    simp [broadcastHere, sendsClosed, pkSendsClosed, pkDecision, htag, tag_of_quiet hpre]
  rw [actSendsClosed, hrun, hclosed]
  have hred : (pre.run s.d).eng.red = s.d.eng.red := hpre.eng s.d
  refine ⟨sameMem_of_mem ((hack.mem _ id).trans (hpre.mem _ id)), (hack.eng _).trans ?_⟩
  simp [updRed, hred]

/-- HALT (R561). -/
theorem does_halt (h : Arrives s.d port { k with kind := pkHalt } p) :
    Does (.halt port k) s fun e => SameMem s.d e ∧ e.fld (PART_CTRL_STOP p) = 1 ∧
      e.flag (TRN_PROOF_SLOT_VALID p 0) = false := by
  refine does_of_run rfl h.alive ?_
  obtain ⟨pre, ack, hpre, hack, hrun⟩ := run_broadcast h rfl
  obtain ⟨hmem, hstop, hslot⟩ := run_haltRank p (pre.run s.d)
  have hhere : broadcastHere p { k with kind := pkHalt } = haltRank p := rfl
  rw [actHalt, hrun, hhere]
  refine ⟨sameMem_of_mem ((hack.mem _ id).trans (hmem.trans (hpre.mem _ id))), ?_, ?_⟩
  · exact (hack.fld _ (quietFoot_not_regs (by simp only [TRN_CFG, PART_CTRL_STOP, PART_CTRL]; omega))).trans hstop
  · have hvalid := (hack.fld _ (f := TRN_PROOF_SLOT_VALID p 0)
      (quietFoot_not_regs (by simp only [TRN_CFG, TRN_PROOF_SLOT_VALID, TRN_PROOF_SLOT]; omega))).trans hslot
    simp [Dev.flag, hvalid]

end

/-- Settles O51: a broadcast reaches its partition through a window and a relay that leave training, memory and reduction
alone, and what follows the values of an installed decision sets none of TRN_STEP, TRN_LS, FAB_STATUS and the drop set
again. -/
theorem rankFollowsManager : Obligations.RankFollowsManager := by
  unfold Obligations.RankFollowsManager
  refine ⟨fun port k p s h _ => ⟨?_, ?_⟩, fun port k p s h htag => ?_, fun port k p s h => ?_⟩
  · exact does_decision_installed h
  · exact does_decision_stale h
  · exact does_sendsClosed h htag
  · exact does_halt h

end Sys2Proof.Machine
end
